-- ==== Sys2Proof/Word.lean ====
section
/-! DEFINITION. The two word types of the hardware (00_scope.md rules R6, R7): `u8` and `u16`, both unsigned. -/

namespace Sys2Proof

/-- `u8`: the width of a general register, of the data bus and of a memory cell (R6: `XLEN` = 8). -/
abbrev Byte := BitVec 8

/-- `u16`: the width of PC, SP, a pair view and a bus address (R6: `ALEN` = 16). Its `+` and `-` are
modulo 65536, as R33 takes every sum on PC and SP. -/
abbrev Word := BitVec 16

end Sys2Proof
end

