-- ==== Sys2Proof/Config.lean ====
section
/-! DEFINITION. The two parameters an implementation fixes (00_scope.md rule R6, 92_eei_decisions.md note 3), and the one
fact about its load vocabulary on which 41_load.md rule R136 is conditional.
The spec leaves no value free, so there is no opaque constant here. The values this hardware takes are
`coreConfig` of `Sys2Proof/Decode.lean`. -/

namespace Sys2Proof

/-- The parameters of R6: "A model may carry the two marked "parameter" as configuration fields; all others
are fixed". They are no state (R12 point 2). -/
structure Config where
  /-- `MEM_SIZE`: the number of bytes in the store; an address is valid when below it (R50). -/
  memSize : Nat
  /-- `PREFIX_BYTE`: the lead byte of a two-byte opcode (R92). -/
  prefixByte : Byte
  /-- Whether the vocabulary of the execution unit admits `Load(HLI, HLI)`: "If the vocabulary admits them", R136. Not
  among the parameters of R6, and no step shows it, since no byte decodes to the pair. DEDUCED, safe (log 17). -/
  admitsHliPair : Bool
  deriving DecidableEq, Repr

end Sys2Proof
end

