-- ==== Sys2Proof/Syntax.lean ====
section
/-! DEFINITION. The instructions as data: the operand sets, the instruction values of 40_step.md rule R112, and
`Instr`, one constructor for each row of spec/opcode_table.json. -/

namespace Sys2Proof

/-- The seven general registers (10_state.md rule R20). F is not one of them. -/
inductive Reg where
  | a | b | c | d | e | h | l
  deriving DecidableEq, Repr

/-- The four 16-bit pair views (R26). -/
inductive Pair where
  | af | bc | de | hl
  deriving DecidableEq, Repr

/-- The condition selectors of JP, CALL and RET (45_jump.md rule R200). -/
inductive Cond where
  | always | notZero | zero | notCarry | carry
  deriving DecidableEq, Repr

/-- The targets of a byte load (R112): a register, or the memory byte at `xx[HL]`. -/
inductive LoadTarget where
  | reg (r : Reg)
  | hli
  deriving DecidableEq, Repr

/-- The sources of a byte load (R112): a register, the memory byte at `xx[HL]`, or the byte at PC+1. -/
inductive LoadSource where
  | reg (r : Reg)
  | hli
  | d8
  deriving DecidableEq, Repr

/-- The instruction values the decoder may produce and the execution unit may consume (R112), "each carrying only
the operands it needs": the address of JP and CALL is no part of one (log 9). `load _ .d8`, `load .hli .hli` and
`multiByteLoad` have no opcode (R135 to R137, logs 11 and 17). -/
inductive InstrValue where
  | nop
  | halt
  | load (t : LoadTarget) (s : LoadSource)
  | push (p : Pair)
  | pop (p : Pair)
  | add (r : Reg)
  | jump (c : Cond)
  | call (c : Cond)
  | ret (c : Cond)
  /-- "any other variant the vocabulary may hold (the document names "multi-byte loads")": R112, R137.
  DESIGN CHOICE, safe (log 11): one name for them all; no byte decodes to it. -/
  | multiByteLoad
  deriving DecidableEq, Repr

/-- The rows of spec/opcode_table.json, in the table's order. `Mem` in a name stands for `(HL)`. -/
inductive Instr where
  /-- `NOP`, 0x00 (R190). -/
  | nop
  /-- `LD B,B`, 0x40 (R131). -/
  | ldBB
  /-- `LD B,C`, 0x41 (R131). -/
  | ldBC
  /-- `LD B,D`, 0x42 (R131). -/
  | ldBD
  /-- `LD B,E`, 0x43 (R131). -/
  | ldBE
  /-- `LD B,H`, 0x44 (R131). -/
  | ldBH
  /-- `LD B,L`, 0x45 (R131). -/
  | ldBL
  /-- `LD B,(HL)`, 0x46 (R132). -/
  | ldBMem
  /-- `LD B,A`, 0x47 (R131). -/
  | ldBA
  /-- `LD C,B`, 0x48 (R131). -/
  | ldCB
  /-- `LD C,C`, 0x49 (R131). -/
  | ldCC
  /-- `LD C,D`, 0x4A (R131). -/
  | ldCD
  /-- `LD C,E`, 0x4B (R131). -/
  | ldCE
  /-- `LD C,H`, 0x4C (R131). -/
  | ldCH
  /-- `LD C,L`, 0x4D (R131). -/
  | ldCL
  /-- `LD C,(HL)`, 0x4E (R132). -/
  | ldCMem
  /-- `LD C,A`, 0x4F (R131). -/
  | ldCA
  /-- `LD D,B`, 0x50 (R131). -/
  | ldDB
  /-- `LD D,C`, 0x51 (R131). -/
  | ldDC
  /-- `LD D,D`, 0x52 (R131). -/
  | ldDD
  /-- `LD D,E`, 0x53 (R131). -/
  | ldDE
  /-- `LD D,H`, 0x54 (R131). -/
  | ldDH
  /-- `LD D,L`, 0x55 (R131). -/
  | ldDL
  /-- `LD D,(HL)`, 0x56 (R132). -/
  | ldDMem
  /-- `LD D,A`, 0x57 (R131). -/
  | ldDA
  /-- `LD E,B`, 0x58 (R131). -/
  | ldEB
  /-- `LD E,C`, 0x59 (R131). -/
  | ldEC
  /-- `LD E,D`, 0x5A (R131). -/
  | ldED
  /-- `LD E,E`, 0x5B (R131). -/
  | ldEE
  /-- `LD E,H`, 0x5C (R131). -/
  | ldEH
  /-- `LD E,L`, 0x5D (R131). -/
  | ldEL
  /-- `LD E,(HL)`, 0x5E (R132). -/
  | ldEMem
  /-- `LD E,A`, 0x5F (R131). -/
  | ldEA
  /-- `LD H,B`, 0x60 (R131). -/
  | ldHB
  /-- `LD H,C`, 0x61 (R131). -/
  | ldHC
  /-- `LD H,D`, 0x62 (R131). -/
  | ldHD
  /-- `LD H,E`, 0x63 (R131). -/
  | ldHE
  /-- `LD H,H`, 0x64 (R131). -/
  | ldHH
  /-- `LD H,L`, 0x65 (R131). -/
  | ldHL
  /-- `LD H,(HL)`, 0x66 (R132). -/
  | ldHMem
  /-- `LD H,A`, 0x67 (R131). -/
  | ldHA
  /-- `LD L,B`, 0x68 (R131). -/
  | ldLB
  /-- `LD L,C`, 0x69 (R131). -/
  | ldLC
  /-- `LD L,D`, 0x6A (R131). -/
  | ldLD
  /-- `LD L,E`, 0x6B (R131). -/
  | ldLE
  /-- `LD L,H`, 0x6C (R131). -/
  | ldLH
  /-- `LD L,L`, 0x6D (R131). -/
  | ldLL
  /-- `LD L,(HL)`, 0x6E (R132). -/
  | ldLMem
  /-- `LD L,A`, 0x6F (R131). -/
  | ldLA
  /-- `LD (HL),B`, 0x70 (R133). -/
  | ldMemB
  /-- `LD (HL),C`, 0x71 (R133). -/
  | ldMemC
  /-- `LD (HL),D`, 0x72 (R133). -/
  | ldMemD
  /-- `LD (HL),E`, 0x73 (R133). -/
  | ldMemE
  /-- `LD (HL),H`, 0x74 (R133). -/
  | ldMemH
  /-- `LD (HL),L`, 0x75 (R133). -/
  | ldMemL
  /-- `HALT`, 0x76 (R191). -/
  | halt
  /-- `LD (HL),A`, 0x77 (R133). -/
  | ldMemA
  /-- `LD A,B`, 0x78 (R131). -/
  | ldAB
  /-- `LD A,C`, 0x79 (R131). -/
  | ldAC
  /-- `LD A,D`, 0x7A (R131). -/
  | ldAD
  /-- `LD A,E`, 0x7B (R131). -/
  | ldAE
  /-- `LD A,H`, 0x7C (R131). -/
  | ldAH
  /-- `LD A,L`, 0x7D (R131). -/
  | ldAL
  /-- `LD A,(HL)`, 0x7E (R132). -/
  | ldAMem
  /-- `LD A,A`, 0x7F (R131). -/
  | ldAA
  /-- `ADD A,B`, 0x80 (R171). -/
  | addAB
  /-- `ADD A,C`, 0x81 (R172). -/
  | addAC
  /-- `ADD A,D`, 0x82 (R173). -/
  | addAD
  /-- `ADD A,E`, 0x83 (R174). -/
  | addAE
  /-- `ADD A,H`, 0x84 (R175). -/
  | addAH
  /-- `ADD A,L`, 0x85 (R176). -/
  | addAL
  /-- `ADD A,A`, 0x87 (R177). -/
  | addAA
  /-- `RET NZ`, 0xC0 (R224). -/
  | retNZ
  /-- `POP BC`, 0xC1 (R156). -/
  | popBC
  /-- `JP NZ,a16`, 0xC2 (R204). -/
  | jpNZ
  /-- `JP a16`, 0xC3 (R203). -/
  | jp
  /-- `CALL NZ,a16`, 0xC4 (R217). -/
  | callNZ
  /-- `PUSH BC`, 0xC5 (R152). -/
  | pushBC
  /-- `RET Z`, 0xC8 (R225). -/
  | retZ
  /-- `RET`, 0xC9 (R223). -/
  | ret
  /-- `JP Z,a16`, 0xCA (R205). -/
  | jpZ
  /-- PREFIX, 0xCB: the fetch unit's two-byte-opcode marker with the byte that follows it (R92, R113). -/
  | prefixOp (second : Byte)
  /-- `CALL Z,a16`, 0xCC (R218). -/
  | callZ
  /-- `CALL a16`, 0xCD (R216). -/
  | call
  /-- `RET NC`, 0xD0 (R226). -/
  | retNC
  /-- `POP DE`, 0xD1 (R157). -/
  | popDE
  /-- `JP NC,a16`, 0xD2 (R206). -/
  | jpNC
  /-- `CALL NC,a16`, 0xD4 (R219). -/
  | callNC
  /-- `PUSH DE`, 0xD5 (R153). -/
  | pushDE
  /-- `RET C`, 0xD8 (R227). -/
  | retC
  /-- `JP C,a16`, 0xDA (R207). -/
  | jpC
  /-- `CALL C,a16`, 0xDC (R220). -/
  | callC
  /-- `POP HL`, 0xE1 (R158). -/
  | popHL
  /-- `PUSH HL`, 0xE5 (R154). -/
  | pushHL
  /-- `POP AF`, 0xF1 (R159). -/
  | popAF
  /-- `PUSH AF`, 0xF5 (R155). -/
  | pushAF
  deriving DecidableEq, Repr

end Sys2Proof
end

