-- ==== Sys2Proof/WellFormed.lean ====
section
/-! DEFINITION. What a well-formed parameter choice, instruction value and instruction is. -/

namespace Sys2Proof

/-- The 160 unprefixed bytes, other than the prefix, that decode to Unrecognized: the list 30_encoding.md rule R90
closes with, range by range. -/
def unrecognizedByte (b : Byte) : Bool :=
  let n := b.toNat
  [(0x01, 0x3F), (0x86, 0x86), (0x88, 0xBF), (0xC6, 0xC7), (0xCE, 0xCF), (0xD3, 0xD3), (0xD6, 0xD7), (0xD9, 0xD9),
   (0xDB, 0xDB), (0xDD, 0xE0), (0xE2, 0xE4), (0xE6, 0xF0), (0xF2, 0xF4), (0xF6, 0xFF)].any
    fun r => decide (r.1 ≤ n) && decide (n ≤ r.2)

/-- The admissible parameters: `MEM_SIZE` is 0xFFFF or 0x10000 (D1, R6); `PREFIX_BYTE` is 0xCB or "one of the 160
bytes of rule R90" (D3). -/
def Config.admissible (c : Config) : Bool :=
  (c.memSize == 0xFFFF || c.memSize == 0x10000) && (c.prefixByte == 0xCB || unrecognizedByte c.prefixByte)

/-- The instruction values some byte decodes to (R112): no load from D8 (R135), no load with both operands `(HL)`
(R136), no load of another kind (R137). -/
def InstrValue.wellFormed : InstrValue → Bool
  | .nop => true
  | .halt => true
  | .load _ .d8 => false
  | .load .hli .hli => false
  | .load _ _ => true
  | .push _ => true
  | .pop _ => true
  | .add _ => true
  | .jump _ => true
  | .call _ => true
  | .ret _ => true
  | .multiByteLoad => false

/-- Every term of `Instr` is well formed: a row fixes its operands, and any byte may follow the prefix (R91). -/
def Instr.wellFormed (_ : Instr) : Bool := true

end Sys2Proof
end

