-- ==== Sys2Proof/Decode.lean ====
section
/-! DEFINITION. The hardware's two parameter values, the byte-order helpers, the decoder (30_encoding.md rules R89 to R92,
40_step.md rule R114), and after it the encoder (R83 to R88), written from the format tables and not from the decoder. -/

namespace Sys2Proof

/-- The parameters this hardware takes (R6). `MEM_SIZE` = 0xFFFF is the spec's decision D1: UNVERIFIED, safe
(log 1). `PREFIX_BYTE` = 0xCB is its decision D3: UNVERIFIED, unsafe for the recorded cause only (log 2).
`admitsHliPair` = false is the treatment of 93_implementation_defined.md U8: DEDUCED, safe (log 17). -/
def coreConfig : Config where
  memSize := 0xFFFF
  prefixByte := 0xCB
  admitsHliPair := false

/-- `hi8(w) = w[15:8]` (R7). -/
def hi8 (w : Word) : Byte := w.extractLsb' 8 8

/-- `lo8(w) = w[7:0]` (R7). -/
def lo8 (w : Word) : Byte := w.extractLsb' 0 8

/-- `{h, l} = (h << 8) | l` (R7). -/
def concat (h l : Byte) : Word := h ++ l

/-! ### What each row of the opcode table stands for -/

/-- What a row of the opcode table is: an instruction value, or the prefix with the byte after it. -/
inductive RowKind where
  | value (v : InstrValue)
  | prefixed (second : Byte)
  deriving DecidableEq, Repr

/-- The instruction value of each row (R112; the table's column `instr`). -/
def rowKind : Instr → RowKind
  | .nop => .value .nop
  | .ldBB => .value (.load (.reg .b) (.reg .b))
  | .ldBC => .value (.load (.reg .b) (.reg .c))
  | .ldBD => .value (.load (.reg .b) (.reg .d))
  | .ldBE => .value (.load (.reg .b) (.reg .e))
  | .ldBH => .value (.load (.reg .b) (.reg .h))
  | .ldBL => .value (.load (.reg .b) (.reg .l))
  | .ldBMem => .value (.load (.reg .b) .hli)
  | .ldBA => .value (.load (.reg .b) (.reg .a))
  | .ldCB => .value (.load (.reg .c) (.reg .b))
  | .ldCC => .value (.load (.reg .c) (.reg .c))
  | .ldCD => .value (.load (.reg .c) (.reg .d))
  | .ldCE => .value (.load (.reg .c) (.reg .e))
  | .ldCH => .value (.load (.reg .c) (.reg .h))
  | .ldCL => .value (.load (.reg .c) (.reg .l))
  | .ldCMem => .value (.load (.reg .c) .hli)
  | .ldCA => .value (.load (.reg .c) (.reg .a))
  | .ldDB => .value (.load (.reg .d) (.reg .b))
  | .ldDC => .value (.load (.reg .d) (.reg .c))
  | .ldDD => .value (.load (.reg .d) (.reg .d))
  | .ldDE => .value (.load (.reg .d) (.reg .e))
  | .ldDH => .value (.load (.reg .d) (.reg .h))
  | .ldDL => .value (.load (.reg .d) (.reg .l))
  | .ldDMem => .value (.load (.reg .d) .hli)
  | .ldDA => .value (.load (.reg .d) (.reg .a))
  | .ldEB => .value (.load (.reg .e) (.reg .b))
  | .ldEC => .value (.load (.reg .e) (.reg .c))
  | .ldED => .value (.load (.reg .e) (.reg .d))
  | .ldEE => .value (.load (.reg .e) (.reg .e))
  | .ldEH => .value (.load (.reg .e) (.reg .h))
  | .ldEL => .value (.load (.reg .e) (.reg .l))
  | .ldEMem => .value (.load (.reg .e) .hli)
  | .ldEA => .value (.load (.reg .e) (.reg .a))
  | .ldHB => .value (.load (.reg .h) (.reg .b))
  | .ldHC => .value (.load (.reg .h) (.reg .c))
  | .ldHD => .value (.load (.reg .h) (.reg .d))
  | .ldHE => .value (.load (.reg .h) (.reg .e))
  | .ldHH => .value (.load (.reg .h) (.reg .h))
  | .ldHL => .value (.load (.reg .h) (.reg .l))
  | .ldHMem => .value (.load (.reg .h) .hli)
  | .ldHA => .value (.load (.reg .h) (.reg .a))
  | .ldLB => .value (.load (.reg .l) (.reg .b))
  | .ldLC => .value (.load (.reg .l) (.reg .c))
  | .ldLD => .value (.load (.reg .l) (.reg .d))
  | .ldLE => .value (.load (.reg .l) (.reg .e))
  | .ldLH => .value (.load (.reg .l) (.reg .h))
  | .ldLL => .value (.load (.reg .l) (.reg .l))
  | .ldLMem => .value (.load (.reg .l) .hli)
  | .ldLA => .value (.load (.reg .l) (.reg .a))
  | .ldMemB => .value (.load .hli (.reg .b))
  | .ldMemC => .value (.load .hli (.reg .c))
  | .ldMemD => .value (.load .hli (.reg .d))
  | .ldMemE => .value (.load .hli (.reg .e))
  | .ldMemH => .value (.load .hli (.reg .h))
  | .ldMemL => .value (.load .hli (.reg .l))
  | .halt => .value .halt
  | .ldMemA => .value (.load .hli (.reg .a))
  | .ldAB => .value (.load (.reg .a) (.reg .b))
  | .ldAC => .value (.load (.reg .a) (.reg .c))
  | .ldAD => .value (.load (.reg .a) (.reg .d))
  | .ldAE => .value (.load (.reg .a) (.reg .e))
  | .ldAH => .value (.load (.reg .a) (.reg .h))
  | .ldAL => .value (.load (.reg .a) (.reg .l))
  | .ldAMem => .value (.load (.reg .a) .hli)
  | .ldAA => .value (.load (.reg .a) (.reg .a))
  | .addAB => .value (.add .b)
  | .addAC => .value (.add .c)
  | .addAD => .value (.add .d)
  | .addAE => .value (.add .e)
  | .addAH => .value (.add .h)
  | .addAL => .value (.add .l)
  | .addAA => .value (.add .a)
  | .retNZ => .value (.ret .notZero)
  | .popBC => .value (.pop .bc)
  | .jpNZ => .value (.jump .notZero)
  | .jp => .value (.jump .always)
  | .callNZ => .value (.call .notZero)
  | .pushBC => .value (.push .bc)
  | .retZ => .value (.ret .zero)
  | .ret => .value (.ret .always)
  | .jpZ => .value (.jump .zero)
  | .prefixOp second => .prefixed second
  | .callZ => .value (.call .zero)
  | .call => .value (.call .always)
  | .retNC => .value (.ret .notCarry)
  | .popDE => .value (.pop .de)
  | .jpNC => .value (.jump .notCarry)
  | .callNC => .value (.call .notCarry)
  | .pushDE => .value (.push .de)
  | .retC => .value (.ret .carry)
  | .jpC => .value (.jump .carry)
  | .callC => .value (.call .carry)
  | .popHL => .value (.pop .hl)
  | .pushHL => .value (.push .hl)
  | .popAF => .value (.pop .af)
  | .pushAF => .value (.push .af)

/-- The instruction value of an instruction; none for the prefix, which is no instruction (R113). -/
def valueOf (i : Instr) : Option InstrValue :=
  match rowKind i with
  | .value v => some v
  | .prefixed _ => none

/-! ### The decoder -/

/-- A row of R89 without an entry. -/
def emptyRow : List (Option Instr) := List.replicate 16 none

/-- Row 0x of R89. -/
def opcodeRow0 : List (Option Instr) :=
  some .nop :: List.replicate 15 none

/-- Row 4x of R89. -/
def opcodeRow4 : List (Option Instr) :=
  [some .ldBB, some .ldBC, some .ldBD, some .ldBE, some .ldBH, some .ldBL, some .ldBMem, some .ldBA,
   some .ldCB, some .ldCC, some .ldCD, some .ldCE, some .ldCH, some .ldCL, some .ldCMem, some .ldCA]

/-- Row 5x of R89. -/
def opcodeRow5 : List (Option Instr) :=
  [some .ldDB, some .ldDC, some .ldDD, some .ldDE, some .ldDH, some .ldDL, some .ldDMem, some .ldDA,
   some .ldEB, some .ldEC, some .ldED, some .ldEE, some .ldEH, some .ldEL, some .ldEMem, some .ldEA]

/-- Row 6x of R89. -/
def opcodeRow6 : List (Option Instr) :=
  [some .ldHB, some .ldHC, some .ldHD, some .ldHE, some .ldHH, some .ldHL, some .ldHMem, some .ldHA,
   some .ldLB, some .ldLC, some .ldLD, some .ldLE, some .ldLH, some .ldLL, some .ldLMem, some .ldLA]

/-- Row 7x of R89. -/
def opcodeRow7 : List (Option Instr) :=
  [some .ldMemB, some .ldMemC, some .ldMemD, some .ldMemE, some .ldMemH, some .ldMemL, some .halt, some .ldMemA,
   some .ldAB, some .ldAC, some .ldAD, some .ldAE, some .ldAH, some .ldAL, some .ldAMem, some .ldAA]

/-- Row 8x of R89. -/
def opcodeRow8 : List (Option Instr) :=
  [some .addAB, some .addAC, some .addAD, some .addAE, some .addAH, some .addAL, none, some .addAA,
   none, none, none, none, none, none, none, none]

/-- Row Cx of R89. -/
def opcodeRowC : List (Option Instr) :=
  [some .retNZ, some .popBC, some .jpNZ, some .jp, some .callNZ, some .pushBC, none, none,
   some .retZ, some .ret, some .jpZ, none, some .callZ, some .call, none, none]

/-- Row Dx of R89. -/
def opcodeRowD : List (Option Instr) :=
  [some .retNC, some .popDE, some .jpNC, none, some .callNC, some .pushDE, none, none,
   some .retC, none, some .jpC, none, some .callC, none, none, none]

/-- Row Ex of R89. -/
def opcodeRowE : List (Option Instr) :=
  [none, some .popHL, none, none, none, some .pushHL, none, none,
   none, none, none, none, none, none, none, none]

/-- Row Fx of R89. -/
def opcodeRowF : List (Option Instr) :=
  [none, some .popAF, none, none, none, some .pushAF, none, none,
   none, none, none, none, none, none, none, none]

/-- The unprefixed decode table of R89, row by row: row = high hex digit, column = low hex digit, `none` where the
rule prints `-` (Unrecognized) and at PREFIX, which "asked of the unprefixed table directly" is Unrecognized (R92). The
assignment of the rows 4x to 8x is D4 and of 0x70 to 0x75, 0x77 is D5: UNVERIFIED, unsafe (logs 4, 5). -/
def opcodeGrid : List (List (Option Instr)) :=
  [opcodeRow0, emptyRow, emptyRow, emptyRow, opcodeRow4, opcodeRow5, opcodeRow6, opcodeRow7, opcodeRow8, emptyRow, emptyRow, emptyRow, opcodeRowC, opcodeRowD, opcodeRowE, opcodeRowF]

/-- The instruction of an unprefixed opcode byte; `none` is Unrecognized (R89, R90). Total on the 256 bytes. -/
def decodeOpcode (b : Byte) : Option Instr :=
  (opcodeGrid.getD (b.toNat / 16) []).getD (b.toNat % 16) none

/-- `decode(byte, prefixed) -> Instruction | Unrecognized` (R114): "a pure, total function of the byte and the flag";
with `prefixed` every byte is Unrecognized (R91). The decoder property of R119 is about this function. -/
def decode (b : Byte) (prefixed : Bool) : Option InstrValue :=
  if prefixed then none else (decodeOpcode b).bind valueOf

/-- The instruction of a fetched opcode: the prefix row when the fetch unit marked it prefixed (R113), the unprefixed
table otherwise. -/
def decodeFetched (b : Byte) (prefixed : Bool) : Option Instr :=
  if prefixed then some (.prefixOp b) else decodeOpcode b

/-- Why a list of bytes is not decoded. -/
inductive DecodeReject where
  /-- The byte is one of the 160 of R90. -/
  | unrecognized (b : Byte)
  /-- The list ends before the opcode does. -/
  | truncated
  deriving DecidableEq, Repr

/-- What decoding a list of bytes gives: the instruction with the bytes after its opcode, or a rejection. The operand
bytes of a 3-byte instruction are among the bytes after the opcode (R80). -/
inductive DecodeResult where
  | ok (i : Instr) (rest : List Byte)
  | rejected (r : DecodeReject)
  deriving DecidableEq, Repr

/-- Decoding any list of bytes: the prefix test is made on the first byte before the table is asked (R113). -/
def decodeBytes : List Byte → DecodeResult
  | [] => .rejected .truncated
  | b0 :: rest =>
    if b0 = coreConfig.prefixByte then
      match rest with
      | [] => .rejected .truncated
      | b1 :: rest' => .ok (.prefixOp b1) rest'
    else
      match decodeOpcode b0 with
      | some i => .ok i rest
      | none => .rejected (.unrecognized b0)

/-- The three bytes, lowest address first, of a table word of which `nbits` bits are given: every bit above is 0. -/
def wordBytes (nbits w : Nat) : List Byte :=
  let v := w % 2 ^ nbits
  [BitVec.ofNat 8 v, BitVec.ofNat 8 (v / 256), BitVec.ofNat 8 (v / 65536)]

/-- The instruction the decoder reads from a table word. -/
def decodeTableWord (nbits w : Nat) : Option Instr :=
  match decodeBytes (wordBytes nbits w) with
  | .ok i _ => some i
  | .rejected _ => none

/-! ### The encoder, from the format tables R83 to R87 -/

/-- The 3-bit register code of R83. -/
def regCode : Reg → BitVec 3
  | .b => 0b000#3
  | .c => 0b001#3
  | .d => 0b010#3
  | .e => 0b011#3
  | .h => 0b100#3
  | .l => 0b101#3
  | .a => 0b111#3

/-- The field `ttt` (R83). -/
def targetCode : LoadTarget → BitVec 3
  | .reg r => regCode r
  | .hli => 0b110#3

/-- The field `sss` (R83); an immediate source has none (R135). -/
def sourceCode : LoadSource → Option (BitVec 3)
  | .reg r => some (regCode r)
  | .hli => some 0b110#3
  | .d8 => none

/-- The field `pp` (R85). -/
def pairCode : Pair → BitVec 2
  | .bc => 0b00#2
  | .de => 0b01#2
  | .hl => 0b10#2
  | .af => 0b11#2

/-- The field `cc` (R86); the unconditional forms have none (R87). -/
def condCode : Cond → Option (BitVec 2)
  | .always => none
  | .notZero => some 0b00#2
  | .zero => some 0b01#2
  | .notCarry => some 0b10#2
  | .carry => some 0b11#2

/-- Format CC with the function `ff` (R86), or the fixed opcode of the unconditional form (R87). -/
def encodeCond (k : Cond) (ff : BitVec 2) (fixed : Byte) : Byte :=
  match condCode k with
  | some cc => 0b110#3 ++ cc ++ ff ++ 0b0#1
  | none => fixed

/-- The opcode byte of an instruction value (R82 to R87); none where it has no opcode (R135 to R137). -/
def encodeValue (v : InstrValue) : Option Byte :=
  if v.wellFormed then
    match v with
    | .nop => some 0b00000000#8
    | .halt => some 0b01110110#8
    | .load t s => (sourceCode s).map fun sss => 0b01#2 ++ targetCode t ++ sss
    | .add r => some (0b10000#5 ++ regCode r)
    | .push p => some (0b11#2 ++ pairCode p ++ 0b0#1 ++ 0b1#1 ++ 0b01#2)
    | .pop p => some (0b11#2 ++ pairCode p ++ 0b0#1 ++ 0b0#1 ++ 0b01#2)
    | .ret k => some (encodeCond k 0b00#2 0b11001001#8)
    | .jump k => some (encodeCond k 0b01#2 0b11000011#8)
    | .call k => some (encodeCond k 0b10#2 0b11001101#8)
    | .multiByteLoad => none
  else none

/-- The opcode bytes of an instruction: one, or the prefix and its second byte (R58). -/
def encode (i : Instr) : List Byte :=
  match rowKind i with
  | .value v => (encodeValue v).toList
  | .prefixed second => [coreConfig.prefixByte, second]

/-- How many bytes an instruction takes (R80). -/
def lengthOf (i : Instr) : Nat :=
  match rowKind i with
  | .value (.jump _) => 3
  | .value (.call _) => 3
  | .value _ => 1
  | .prefixed _ => 2

/-- The operand bytes after the opcode: the low byte of a16, then the high byte, for JP and CALL (R88, R56). -/
def operandBytes (i : Instr) (a16 : Word) : List Byte :=
  if lengthOf i = 3 then [lo8 a16, hi8 a16] else []

/-- The whole instruction as the hardware stores it, the operand of JP and CALL being `a16` (R80, R95). -/
def assemble (i : Instr) (a16 : Word) : List Byte := encode i ++ operandBytes i a16

end Sys2Proof
end

