-- ==== Sys2Proof/Machine/State.lean ====
section
/-! DEFINITION. The state of the machine (10_state.md), the causes of a fatal condition (60_exceptions.md rule R240) and
the state after reset (R38 to R41). -/

namespace Sys2Proof.Machine

/-- The direction of a bus access, as `BusFault` records it (R240). -/
inductive Access where
  | read | write
  deriving DecidableEq, Repr

/-- The causes of a fatal condition: "a closed type with these three constructors" (R240). A fatal condition is an
entry the spec describes (R244), so the meanings TAKE it: the cause goes into `State.status` and the step answers a next
state (log 6). No meaning answers `Host.Outcome.fault`. Safe: a machine with a cause in `status` runs no further step. -/
inductive Fault where
  /-- Raised by a step whose opcode byte has no entry in the decode table asked (R241). Safe. -/
  | unrecognizedOpcode (byte : Byte) (prefixed : Bool)
  /-- Raised by dispatch of an instruction value that has no handler: HALT (R242). Safe. -/
  | unimplementedInstruction (v : InstrValue)
  /-- Raised by a bus access at an address not below `MEM_SIZE` (R243). Safe. -/
  | busFault (addr : Word) (access : Access)
  deriving DecidableEq, Repr

/-- Why the model would have no meaning for an instruction. No arm of `exec` uses it: every row has its meaning. -/
inductive Refusal where
  /-- Raised by an arm of `exec` that has no meaning yet. Safe. -/
  | notModelled (mnemonic : String)
  deriving DecidableEq, Repr

/-- The flags register F: "four independent booleans", the whole of it (R22). -/
structure Flags where
  /-- zero, bit 7 of the packed byte -/
  z : Bool
  /-- subtract, bit 6 -/
  n : Bool
  /-- half_carry, bit 5 -/
  h : Bool
  /-- carry, bit 4 -/
  c : Bool
  deriving DecidableEq, Repr

/-- The run status (R35). -/
inductive Status where
  | running
  | faulted (cause : Fault)
  deriving DecidableEq, Repr

/-- The store of R37 and R50 as the list of its bytes that are not 0x00, by strictly rising address (log 15). -/
abbrev Memory := List Host.Cell

/-- "The complete state is: seven general registers, four flag bits, PC, SP, the memory array and the run status"
(10_state.md, opening paragraph; R12 point 2). -/
structure State where
  a : Byte
  b : Byte
  c : Byte
  d : Byte
  e : Byte
  h : Byte
  l : Byte
  f : Flags
  pc : Word
  sp : Word
  mem : Memory
  status : Status
  deriving DecidableEq, Repr

/-- The state after reset: all zero, flags false, memory zero-filled, Running (R38 to R41, R280). -/
def State.reset : State where
  a := 0x00
  b := 0x00
  c := 0x00
  d := 0x00
  e := 0x00
  h := 0x00
  l := 0x00
  f := { z := false, n := false, h := false, c := false }
  pc := 0x0000
  sp := 0x0000
  mem := []
  status := .running

end Sys2Proof.Machine
end

