-- ==== Sys2Proof/Machine/Flags.lean ====
section
/-! DEFINITION. Every flag computation of the hardware: packing and unpacking F (10_state.md rules R23, R24), the one ALU
operation (43_add.md rule R170), and the conditions that read flags (45_jump.md rule R200). -/

namespace Sys2Proof.Machine

/-- `to_byte`: bit 7 zero, bit 6 subtract, bit 5 half_carry, bit 4 carry, bits 3 to 0 zero (R23). -/
def packFlags (f : Flags) : Byte :=
  BitVec.ofBool f.z ++ BitVec.ofBool f.n ++ BitVec.ofBool f.h ++ BitVec.ofBool f.c ++ 0b0000#4

/-- `from_byte`: bits 3 to 0 are ignored and lost (R24). -/
def unpackFlags (b : Byte) : Flags where
  z := b.getLsbD 7
  n := b.getLsbD 6
  h := b.getLsbD 5
  c := b.getLsbD 4

/-- `add8(a, b)`: the result and the four flags, computed over the naturals and narrowed at the end (R170). -/
def add8 (x y : Byte) : Byte × Flags :=
  let sum := x.toNat + y.toNat
  let r : Byte := BitVec.ofNat 8 (sum % 256)
  (r, { z := r == 0
        n := false
        h := decide (x.toNat % 16 + y.toNat % 16 > 0xF)
        c := decide (sum > 0xFF) })

/-- `cond(c)` on the flags at the start of the instruction (R200). The evaluation is the spec's plain reading of the
names, D6: UNVERIFIED, unsafe if the names meant otherwise (log 8). -/
def condHolds (k : Cond) (f : Flags) : Bool :=
  match k with
  | .always => true
  | .notZero => !f.z
  | .zero => f.z
  | .notCarry => !f.c
  | .carry => f.c

end Sys2Proof.Machine
end

