-- ==== Sys2Proof/Machine/Operands.lean ====
section
/-! DEFINITION. The register operands: the seven general registers, the four pair views (10_state.md rules R20, R26 to
R28), and the named updates of State. -/

namespace Sys2Proof.Machine

/-- `x[i]` (R8, R20). -/
def getReg (r : Reg) (s : State) : Byte :=
  match r with
  | .a => s.a
  | .b => s.b
  | .c => s.c
  | .d => s.d
  | .e => s.e
  | .h => s.h
  | .l => s.l

/-- `x[i] <- v` (R8, R20): no register is hard-wired. -/
def setReg (r : Reg) (v : Byte) (s : State) : State :=
  match r with
  | .a => { s with a := v }
  | .b => { s with b := v }
  | .c => { s with c := v }
  | .d => { s with d := v }
  | .e => { s with e := v }
  | .h => { s with h := v }
  | .l => { s with l := v }

/-- `F <- (z, n, h, c)` (R8). -/
def setFlags (f : Flags) (s : State) : State := { s with f := f }

/-- The commit of PC (R116). -/
def setPc (w : Word) (s : State) : State := { s with pc := w }

/-- A write of SP (R34). -/
def setSp (w : Word) (s : State) : State := { s with sp := w }

/-- A new content of the store (R37). -/
def setMem (m : Memory) (s : State) : State := { s with mem := m }

/-- A write of the run status (R35). -/
def setStatus (st : Status) (s : State) : State := { s with status := st }

/-- `xx[p]`: the first-named register is the high byte; the low byte of AF is the packed flags byte (R26). -/
def readPair (p : Pair) (s : State) : Word :=
  match p with
  | .bc => concat (getReg .b s) (getReg .c s)
  | .de => concat (getReg .d s) (getReg .e s)
  | .hl => concat (getReg .h s) (getReg .l s)
  | .af => concat (getReg .a s) (packFlags s.f)

/-- `xx[p] <- w` (R27; R28 for AF, whose bits 3 to 0 are discarded). -/
def writePair (p : Pair) (w : Word) (s : State) : State :=
  match p with
  | .bc => setReg .c (lo8 w) (setReg .b (hi8 w) s)
  | .de => setReg .e (lo8 w) (setReg .d (hi8 w) s)
  | .hl => setReg .l (lo8 w) (setReg .h (hi8 w) s)
  | .af => setFlags (unpackFlags (lo8 w)) (setReg .a (hi8 w) s)

end Sys2Proof.Machine
end

