-- ==== Sys2Proof/Machine/Ops.lean ====
section
/-! DEFINITION. The named operations every meaning is built from: memory (20_memory.md), raising a fatal condition and
committing PC (60_exceptions.md rule R244, 40_step.md rule R116), the stack primitives (42_stack.md rules R150, R151),
the immediate reads and the load operands. -/

namespace Sys2Proof.Machine

/-! ### The store -/

/-- What an address nothing has written reads as: "After reset every memory byte is 0x00" (R41). -/
def unlistedByte : Byte := 0x00

/-- The byte at an address. -/
def Memory.read : Memory → Nat → Byte
  | [], _ => unlistedByte
  | (k, x) :: rest, a => if k = a then x else Memory.read rest a

/-- The store without the entry of an address. -/
def Memory.erase : Memory → Nat → Memory
  | [], _ => []
  | (k, x) :: rest, a => if k = a then Memory.erase rest a else (k, x) :: Memory.erase rest a

/-- The store with an entry put before the first one at a higher address. -/
def Memory.insert : Memory → Nat → Byte → Memory
  | [], a, v => [(a, v)]
  | (k, x) :: rest, a, v => if k < a then (k, x) :: Memory.insert rest a v else (a, v) :: (k, x) :: rest

/-- `mem[addr] <- v` (R53). The byte an unlisted address reads as is not listed. -/
def Memory.write (m : Memory) (a : Nat) (v : Byte) : Memory :=
  if v = unlistedByte then m.erase a else (m.erase a).insert a v

/-- The entries from `lo` on rise strictly, lie below `size`, and none is the byte an unlisted address reads as. -/
def Memory.wfFrom (size : Nat) : Nat → Memory → Bool
  | _, [] => true
  | lo, (k, x) :: rest =>
    decide (lo ≤ k) && decide (k < size) && decide (x ≠ unlistedByte) && Memory.wfFrom size (k + 1) rest

/-- The canonical form of a store of `MEM_SIZE` bytes (R37, R50; log 15). -/
def Memory.wf (c : Config) (m : Memory) : Bool := Memory.wfFrom c.memSize 0 m

/-- The byte of memory at a bus address, for stating what memory holds; no access is made. -/
def byteAt (s : State) (addr : Word) : Byte := s.mem.read addr.toNat

/-- `mem[addr] <- v`, without the bounds check (R53). -/
def putByte (addr : Word) (v : Byte) (s : State) : State := setMem (s.mem.write addr.toNat v) s

/-- "An address `a` is valid when `a < MEM_SIZE` and out of bounds when `a >= MEM_SIZE`" (R50). -/
def isOutOfBounds (c : Config) (addr : Word) : Bool := decide (addr.toNat ≥ c.memSize)

/-! ### A computation that may raise -/

/-- How a piece of an instruction ends: with a value, or by `raise`. Both carry the state reached, so every write made
before a raise stays made (R9, R245; log 7). -/
inductive Result (α : Type) where
  | ok (x : α) (s : State)
  | raised (cause : Fault) (s : State)
  deriving DecidableEq, Repr

/-- "Lines of pseudocode run in the order written"; after a raise "no later line of the pseudocode runs" (R9). -/
def Result.andThen {α β : Type} (r : Result α) (next : α → State → Result β) : Result β :=
  match r with
  | .ok x s => next x s
  | .raised cause s => .raised cause s

/-! ### Taking a fatal condition, and the commit -/

/-- What a meaning or a step answers. -/
abbrev Answer := Host.Outcome State Fault Refusal

/-- Trap entry (R244): `status` becomes `Faulted(cause)`; PC is not committed; nothing is saved and control goes
nowhere. There is no return from it (R248): `hostReset` of `Launch.lean` is the only way out. -/
def takeFatal (cause : Fault) (s : State) : State := setStatus (.faulted cause) s

/-- The end of an instruction: the commit `pc <- next_pc` when its handler returned (R116), trap entry when it raised
(R244). A raise is answered as a next state: DEDUCED, safe (log 6). -/
def commit : Result Word → Answer
  | .ok next s => .next (setPc next s)
  | .raised cause s => .next (takeFatal cause s)

/-! ### The two bus primitives -/

/-- `MemRead(addr, 1)` (R52). An out-of-bounds access raises and is never wrapped (R54, D1; log 1). -/
def memRead (c : Config) (addr : Word) (s : State) : Result Byte :=
  if isOutOfBounds c addr then .raised (.busFault addr .read) s
  else .ok (byteAt s addr) s

/-- `MemWrite(addr, 1, v)` (R53). -/
def memWrite (c : Config) (addr : Word) (v : Byte) (s : State) : Result Unit :=
  if isOutOfBounds c addr then .raised (.busFault addr .write) s
  else .ok () (putByte addr v s)

/-! ### Operands in the instruction stream -/

/-- `imm8()`: the byte at PC+1 (R9, R135). -/
def imm8 (c : Config) (s : State) : Result Byte := memRead c (s.pc + 1) s

/-- `imm16()`: the little-endian word at PC+1 and PC+2, low byte read first (R201; the order is the spec's, log 12). -/
def imm16 (c : Config) (s : State) : Result Word :=
  (memRead c (s.pc + 1) s).andThen fun l s1 =>
  (memRead c (s1.pc + 2) s1).andThen fun h s2 =>
  .ok (concat h l) s2

/-! ### The stack primitives -/

/-- `push16(w)`: each decrement before its write, the high byte first (R150). -/
def push16 (c : Config) (w : Word) (s : State) : Result Unit :=
  let s1 := setSp (s.sp - 1) s
  (memWrite c s1.sp (hi8 w) s1).andThen fun _ s2 =>
  let s3 := setSp (s2.sp - 1) s2
  memWrite c s3.sp (lo8 w) s3

/-- `pop16()`: each read before its increment, the low byte first (R151). -/
def pop16 (c : Config) (s : State) : Result Word :=
  (memRead c s.sp s).andThen fun l s1 =>
  let s2 := setSp (s1.sp + 1) s1
  (memRead c s2.sp s2).andThen fun h s3 =>
  .ok (concat h l) (setSp (s3.sp + 1) s3)

/-! ### The operands of a byte load -/

/-- The value of a load's source (R130). -/
def readSource (c : Config) (src : LoadSource) (s : State) : Result Byte :=
  match src with
  | .reg r => .ok (getReg r s) s
  | .hli => memRead c (readPair .hl s) s
  | .d8 => imm8 c s

/-- The write of a load's target (R130). -/
def writeTarget (c : Config) (t : LoadTarget) (v : Byte) (s : State) : Result Unit :=
  match t with
  | .reg r => .ok () (setReg r v s)
  | .hli => memWrite c (readPair .hl s) v s

/-- The bytes a load takes: two with an immediate source, else one (R130). -/
def loadLength : LoadSource → Word
  | .reg _ => 1
  | .hli => 1
  | .d8 => 2

end Sys2Proof.Machine
end

