-- ==== Sys2Proof/Machine/Add.lean ====
section
/-! DEFINITION. The 8-bit add to the accumulator (43_add.md rules R171 to R177). -/

namespace Sys2Proof.Machine

/-- The handler of `Add(r)`: A gets the sum and all four flags are written; both operands are read before A is
written (R171, R177). -/
def addToA (r : Reg) (s : State) : Result Word :=
  let sum := add8 (getReg .a s) (getReg r s)
  let s1 := setFlags sum.2 (setReg .a sum.1 s)
  .ok (s1.pc + 1) s1

/-- `ADD A,B`, 0x80 (R171). -/
def execAddAB (s : State) : Answer := commit (addToA .b s)

/-- `ADD A,C`, 0x81 (R172). -/
def execAddAC (s : State) : Answer := commit (addToA .c s)

/-- `ADD A,D`, 0x82 (R173). -/
def execAddAD (s : State) : Answer := commit (addToA .d s)

/-- `ADD A,E`, 0x83 (R174). -/
def execAddAE (s : State) : Answer := commit (addToA .e s)

/-- `ADD A,H`, 0x84 (R175). -/
def execAddAH (s : State) : Answer := commit (addToA .h s)

/-- `ADD A,L`, 0x85 (R176). -/
def execAddAL (s : State) : Answer := commit (addToA .l s)

/-- `ADD A,A`, 0x87 (R177). -/
def execAddAA (s : State) : Answer := commit (addToA .a s)

end Sys2Proof.Machine
end

