-- ==== Sys2Proof/Machine/CallReturn.lean ====
section
/-! DEFINITION. Calls and returns (46_call_return.md rules R215 to R227). -/

namespace Sys2Proof.Machine

/-- The handler of `Call(c)` (R215): when taken, PC+3 is pushed first and the operand is read AFTER the push, so a
push over the operand changes the target (R221). -/
def call (c : Config) (k : Cond) (s : State) : Result Word :=
  let next := s.pc + 3
  if condHolds k s.f then (push16 c next s).andThen fun _ s1 => imm16 c s1
  else .ok next s

/-- The handler of `Return(c)` (R222). -/
def ret (c : Config) (k : Cond) (s : State) : Result Word :=
  if condHolds k s.f then pop16 c s else .ok (s.pc + 1) s

/-- `CALL NZ,a16`, 0xC4 (R217). -/
def execCallNZ (s : State) : Answer := commit (call coreConfig .notZero s)

/-- `CALL Z,a16`, 0xCC (R218). -/
def execCallZ (s : State) : Answer := commit (call coreConfig .zero s)

/-- `CALL a16`, 0xCD (R216). -/
def execCall (s : State) : Answer := commit (call coreConfig .always s)

/-- `CALL NC,a16`, 0xD4 (R219). -/
def execCallNC (s : State) : Answer := commit (call coreConfig .notCarry s)

/-- `CALL C,a16`, 0xDC (R220). -/
def execCallC (s : State) : Answer := commit (call coreConfig .carry s)

/-- `RET NZ`, 0xC0 (R224). -/
def execRetNZ (s : State) : Answer := commit (ret coreConfig .notZero s)

/-- `RET Z`, 0xC8 (R225). -/
def execRetZ (s : State) : Answer := commit (ret coreConfig .zero s)

/-- `RET`, 0xC9 (R223). -/
def execRet (s : State) : Answer := commit (ret coreConfig .always s)

/-- `RET NC`, 0xD0 (R226). -/
def execRetNC (s : State) : Answer := commit (ret coreConfig .notCarry s)

/-- `RET C`, 0xD8 (R227). -/
def execRetC (s : State) : Answer := commit (ret coreConfig .carry s)

end Sys2Proof.Machine
end

