-- ==== Sys2Proof/Machine/Jump.lean ====
section
/-! DEFINITION. The absolute jumps (45_jump.md rules R202 to R207). -/

namespace Sys2Proof.Machine

/-- The handler of `Jump(c)` (R202): the operand is read only when the condition is true (R201). -/
def jump (c : Config) (k : Cond) (s : State) : Result Word :=
  if condHolds k s.f then imm16 c s else .ok (s.pc + 3) s

/-- `JP NZ,a16`, 0xC2 (R204). -/
def execJpNZ (s : State) : Answer := commit (jump coreConfig .notZero s)

/-- `JP a16`, 0xC3 (R203). -/
def execJp (s : State) : Answer := commit (jump coreConfig .always s)

/-- `JP Z,a16`, 0xCA (R205). -/
def execJpZ (s : State) : Answer := commit (jump coreConfig .zero s)

/-- `JP NC,a16`, 0xD2 (R206). -/
def execJpNC (s : State) : Answer := commit (jump coreConfig .notCarry s)

/-- `JP C,a16`, 0xDA (R207). -/
def execJpC (s : State) : Answer := commit (jump coreConfig .carry s)

end Sys2Proof.Machine
end

