-- ==== Sys2Proof/Machine/Load.lean ====
section
/-! DEFINITION. The byte loads (41_load.md): the handler of `Load(t, s)` (R130) and the 63 load opcodes. -/

namespace Sys2Proof.Machine

/-- The handler of `Load(t, s)` (R130): the source is read before the target is written. With a `D8` source it is R135
and R136, which no opcode reaches. `execute` asks first whether the load has a handler. -/
def load (c : Config) (t : LoadTarget) (src : LoadSource) (s : State) : Result Word :=
  (readSource c src s).andThen fun v s1 =>
  (writeTarget c t v s1).andThen fun _ s2 =>
  .ok (s2.pc + loadLength src) s2

/-- `LD B,B`, 0x40 (R131). -/
def execLdBB (s : State) : Answer := commit (load coreConfig (.reg .b) (.reg .b) s)

/-- `LD B,C`, 0x41 (R131). -/
def execLdBC (s : State) : Answer := commit (load coreConfig (.reg .b) (.reg .c) s)

/-- `LD B,D`, 0x42 (R131). -/
def execLdBD (s : State) : Answer := commit (load coreConfig (.reg .b) (.reg .d) s)

/-- `LD B,E`, 0x43 (R131). -/
def execLdBE (s : State) : Answer := commit (load coreConfig (.reg .b) (.reg .e) s)

/-- `LD B,H`, 0x44 (R131). -/
def execLdBH (s : State) : Answer := commit (load coreConfig (.reg .b) (.reg .h) s)

/-- `LD B,L`, 0x45 (R131). -/
def execLdBL (s : State) : Answer := commit (load coreConfig (.reg .b) (.reg .l) s)

/-- `LD B,(HL)`, 0x46 (R132). -/
def execLdBMem (s : State) : Answer := commit (load coreConfig (.reg .b) .hli s)

/-- `LD B,A`, 0x47 (R131). -/
def execLdBA (s : State) : Answer := commit (load coreConfig (.reg .b) (.reg .a) s)

/-- `LD C,B`, 0x48 (R131). -/
def execLdCB (s : State) : Answer := commit (load coreConfig (.reg .c) (.reg .b) s)

/-- `LD C,C`, 0x49 (R131). -/
def execLdCC (s : State) : Answer := commit (load coreConfig (.reg .c) (.reg .c) s)

/-- `LD C,D`, 0x4A (R131). -/
def execLdCD (s : State) : Answer := commit (load coreConfig (.reg .c) (.reg .d) s)

/-- `LD C,E`, 0x4B (R131). -/
def execLdCE (s : State) : Answer := commit (load coreConfig (.reg .c) (.reg .e) s)

/-- `LD C,H`, 0x4C (R131). -/
def execLdCH (s : State) : Answer := commit (load coreConfig (.reg .c) (.reg .h) s)

/-- `LD C,L`, 0x4D (R131). -/
def execLdCL (s : State) : Answer := commit (load coreConfig (.reg .c) (.reg .l) s)

/-- `LD C,(HL)`, 0x4E (R132). -/
def execLdCMem (s : State) : Answer := commit (load coreConfig (.reg .c) .hli s)

/-- `LD C,A`, 0x4F (R131). -/
def execLdCA (s : State) : Answer := commit (load coreConfig (.reg .c) (.reg .a) s)

/-- `LD D,B`, 0x50 (R131). -/
def execLdDB (s : State) : Answer := commit (load coreConfig (.reg .d) (.reg .b) s)

/-- `LD D,C`, 0x51 (R131). -/
def execLdDC (s : State) : Answer := commit (load coreConfig (.reg .d) (.reg .c) s)

/-- `LD D,D`, 0x52 (R131). -/
def execLdDD (s : State) : Answer := commit (load coreConfig (.reg .d) (.reg .d) s)

/-- `LD D,E`, 0x53 (R131). -/
def execLdDE (s : State) : Answer := commit (load coreConfig (.reg .d) (.reg .e) s)

/-- `LD D,H`, 0x54 (R131). -/
def execLdDH (s : State) : Answer := commit (load coreConfig (.reg .d) (.reg .h) s)

/-- `LD D,L`, 0x55 (R131). -/
def execLdDL (s : State) : Answer := commit (load coreConfig (.reg .d) (.reg .l) s)

/-- `LD D,(HL)`, 0x56 (R132). -/
def execLdDMem (s : State) : Answer := commit (load coreConfig (.reg .d) .hli s)

/-- `LD D,A`, 0x57 (R131). -/
def execLdDA (s : State) : Answer := commit (load coreConfig (.reg .d) (.reg .a) s)

/-- `LD E,B`, 0x58 (R131). -/
def execLdEB (s : State) : Answer := commit (load coreConfig (.reg .e) (.reg .b) s)

/-- `LD E,C`, 0x59 (R131). -/
def execLdEC (s : State) : Answer := commit (load coreConfig (.reg .e) (.reg .c) s)

/-- `LD E,D`, 0x5A (R131). -/
def execLdED (s : State) : Answer := commit (load coreConfig (.reg .e) (.reg .d) s)

/-- `LD E,E`, 0x5B (R131). -/
def execLdEE (s : State) : Answer := commit (load coreConfig (.reg .e) (.reg .e) s)

/-- `LD E,H`, 0x5C (R131). -/
def execLdEH (s : State) : Answer := commit (load coreConfig (.reg .e) (.reg .h) s)

/-- `LD E,L`, 0x5D (R131). -/
def execLdEL (s : State) : Answer := commit (load coreConfig (.reg .e) (.reg .l) s)

/-- `LD E,(HL)`, 0x5E (R132). -/
def execLdEMem (s : State) : Answer := commit (load coreConfig (.reg .e) .hli s)

/-- `LD E,A`, 0x5F (R131). -/
def execLdEA (s : State) : Answer := commit (load coreConfig (.reg .e) (.reg .a) s)

/-- `LD H,B`, 0x60 (R131). -/
def execLdHB (s : State) : Answer := commit (load coreConfig (.reg .h) (.reg .b) s)

/-- `LD H,C`, 0x61 (R131). -/
def execLdHC (s : State) : Answer := commit (load coreConfig (.reg .h) (.reg .c) s)

/-- `LD H,D`, 0x62 (R131). -/
def execLdHD (s : State) : Answer := commit (load coreConfig (.reg .h) (.reg .d) s)

/-- `LD H,E`, 0x63 (R131). -/
def execLdHE (s : State) : Answer := commit (load coreConfig (.reg .h) (.reg .e) s)

/-- `LD H,H`, 0x64 (R131). -/
def execLdHH (s : State) : Answer := commit (load coreConfig (.reg .h) (.reg .h) s)

/-- `LD H,L`, 0x65 (R131). -/
def execLdHL (s : State) : Answer := commit (load coreConfig (.reg .h) (.reg .l) s)

/-- `LD H,(HL)`, 0x66 (R132). -/
def execLdHMem (s : State) : Answer := commit (load coreConfig (.reg .h) .hli s)

/-- `LD H,A`, 0x67 (R131). -/
def execLdHA (s : State) : Answer := commit (load coreConfig (.reg .h) (.reg .a) s)

/-- `LD L,B`, 0x68 (R131). -/
def execLdLB (s : State) : Answer := commit (load coreConfig (.reg .l) (.reg .b) s)

/-- `LD L,C`, 0x69 (R131). -/
def execLdLC (s : State) : Answer := commit (load coreConfig (.reg .l) (.reg .c) s)

/-- `LD L,D`, 0x6A (R131). -/
def execLdLD (s : State) : Answer := commit (load coreConfig (.reg .l) (.reg .d) s)

/-- `LD L,E`, 0x6B (R131). -/
def execLdLE (s : State) : Answer := commit (load coreConfig (.reg .l) (.reg .e) s)

/-- `LD L,H`, 0x6C (R131). -/
def execLdLH (s : State) : Answer := commit (load coreConfig (.reg .l) (.reg .h) s)

/-- `LD L,L`, 0x6D (R131). -/
def execLdLL (s : State) : Answer := commit (load coreConfig (.reg .l) (.reg .l) s)

/-- `LD L,(HL)`, 0x6E (R132). -/
def execLdLMem (s : State) : Answer := commit (load coreConfig (.reg .l) .hli s)

/-- `LD L,A`, 0x6F (R131). -/
def execLdLA (s : State) : Answer := commit (load coreConfig (.reg .l) (.reg .a) s)

/-- `LD (HL),B`, 0x70 (R133). -/
def execLdMemB (s : State) : Answer := commit (load coreConfig .hli (.reg .b) s)

/-- `LD (HL),C`, 0x71 (R133). -/
def execLdMemC (s : State) : Answer := commit (load coreConfig .hli (.reg .c) s)

/-- `LD (HL),D`, 0x72 (R133). -/
def execLdMemD (s : State) : Answer := commit (load coreConfig .hli (.reg .d) s)

/-- `LD (HL),E`, 0x73 (R133). -/
def execLdMemE (s : State) : Answer := commit (load coreConfig .hli (.reg .e) s)

/-- `LD (HL),H`, 0x74 (R133). -/
def execLdMemH (s : State) : Answer := commit (load coreConfig .hli (.reg .h) s)

/-- `LD (HL),L`, 0x75 (R133). -/
def execLdMemL (s : State) : Answer := commit (load coreConfig .hli (.reg .l) s)

/-- `LD (HL),A`, 0x77 (R133). -/
def execLdMemA (s : State) : Answer := commit (load coreConfig .hli (.reg .a) s)

/-- `LD A,B`, 0x78 (R131). -/
def execLdAB (s : State) : Answer := commit (load coreConfig (.reg .a) (.reg .b) s)

/-- `LD A,C`, 0x79 (R131). -/
def execLdAC (s : State) : Answer := commit (load coreConfig (.reg .a) (.reg .c) s)

/-- `LD A,D`, 0x7A (R131). -/
def execLdAD (s : State) : Answer := commit (load coreConfig (.reg .a) (.reg .d) s)

/-- `LD A,E`, 0x7B (R131). -/
def execLdAE (s : State) : Answer := commit (load coreConfig (.reg .a) (.reg .e) s)

/-- `LD A,H`, 0x7C (R131). -/
def execLdAH (s : State) : Answer := commit (load coreConfig (.reg .a) (.reg .h) s)

/-- `LD A,L`, 0x7D (R131). -/
def execLdAL (s : State) : Answer := commit (load coreConfig (.reg .a) (.reg .l) s)

/-- `LD A,(HL)`, 0x7E (R132). -/
def execLdAMem (s : State) : Answer := commit (load coreConfig (.reg .a) .hli s)

/-- `LD A,A`, 0x7F (R131). -/
def execLdAA (s : State) : Answer := commit (load coreConfig (.reg .a) (.reg .a) s)

end Sys2Proof.Machine
end

