-- ==== Sys2Proof/Machine/Stack.lean ====
section
/-! DEFINITION. PUSH and POP of the four register pairs (42_stack.md rules R152 to R159). -/

namespace Sys2Proof.Machine

/-- The handler of `Push(p)`: `push16(xx[p])`, then PC+1 (R152 to R155). -/
def push (c : Config) (p : Pair) (s : State) : Result Word :=
  (push16 c (readPair p s) s).andThen fun _ s1 =>
  .ok (s1.pc + 1) s1

/-- The handler of `Pop(p)`: the pair is written only after both reads succeed (R156 to R159). -/
def pop (c : Config) (p : Pair) (s : State) : Result Word :=
  (pop16 c s).andThen fun w s1 =>
  let s2 := writePair p w s1
  .ok (s2.pc + 1) s2

/-- `POP BC`, 0xC1 (R156). -/
def execPopBC (s : State) : Answer := commit (pop coreConfig .bc s)

/-- `PUSH BC`, 0xC5 (R152). -/
def execPushBC (s : State) : Answer := commit (push coreConfig .bc s)

/-- `POP DE`, 0xD1 (R157). -/
def execPopDE (s : State) : Answer := commit (pop coreConfig .de s)

/-- `PUSH DE`, 0xD5 (R153). -/
def execPushDE (s : State) : Answer := commit (push coreConfig .de s)

/-- `POP HL`, 0xE1 (R158). -/
def execPopHL (s : State) : Answer := commit (pop coreConfig .hl s)

/-- `PUSH HL`, 0xE5 (R154). -/
def execPushHL (s : State) : Answer := commit (push coreConfig .hl s)

/-- `POP AF`, 0xF1 (R159). -/
def execPopAF (s : State) : Answer := commit (pop coreConfig .af s)

/-- `PUSH AF`, 0xF5 (R155). -/
def execPushAF (s : State) : Answer := commit (push coreConfig .af s)

end Sys2Proof.Machine
end

