-- ==== Sys2Proof/Machine/System.lean ====
section
/-! DEFINITION. NOP and HALT (44_nop_halt.md rules R190, R191), the instruction values without a handler (41_load.md rule
R137), and the prefix row (40_step.md rules R113, R114). -/

namespace Sys2Proof.Machine

/-- The handler of `Nop`: PC+1 and nothing else (R190). -/
def noOperation (s : State) : Result Word := .ok (s.pc + 1) s

/-- Dispatch of an instruction value that has no handler (R115, R242): HALT (R191), and the loads that are no byte
loads (R137), and `Load(HLI, HLI)` where the vocabulary does not admit it (log 17). -/
def noHandler (v : InstrValue) (s : State) : Result Word := .raised (.unimplementedInstruction v) s

/-- Decode answered Unrecognized (R114, R241). -/
def unrecognized (b : Byte) (prefixed : Bool) (s : State) : Result Word :=
  .raised (.unrecognizedOpcode b prefixed) s

/-- `NOP`, 0x00 (R190). -/
def execNop (s : State) : Answer := commit (noOperation s)

/-- `HALT`, 0x76 (R191). -/
def execHalt (s : State) : Answer := commit (noHandler .halt s)

/-- PREFIX, 0xCB, with the byte that follows it: "The prefixed table has 256 entries and every one is Unrecognized"
(R91), so a step that meets the prefix raises `UnrecognizedOpcode(second, true)` (R113, R114; log 10). -/
def execPrefixOp (second : Byte) (s : State) : Answer := commit (unrecognized second true s)

end Sys2Proof.Machine
end

