-- ==== Sys2Proof/Machine/Fetch.lean ====
section
/-! DEFINITION. The fetch unit (40_step.md rules R111, R113) and the decode that follows it (R114). -/

namespace Sys2Proof.Machine

/-- What the fetch unit hands to the decoder: the opcode byte and whether it came behind the prefix (R113). -/
structure Fetched where
  op : Byte
  prefixed : Bool
  deriving DecidableEq, Repr

/-- Fetch: the byte at PC (R111), and when it is `PREFIX_BYTE` the byte at PC+1 (R113). PC does not move. -/
def fetch (c : Config) (s : State) : Result Fetched :=
  (memRead c s.pc s).andThen fun b0 s1 =>
  if b0 = c.prefixByte then
    (memRead c (s1.pc + 1) s1).andThen fun b1 s2 => .ok ⟨b1, true⟩ s2
  else .ok ⟨b0, false⟩ s1

/-- Fetch, then decode: the row to run, or the fatal condition raised before any instruction effect (R114, R241). The
prefix row is handed on and raises in its meaning. -/
def fetchInstr (c : Config) (s : State) : Result Instr :=
  (fetch c s).andThen fun x s1 =>
  match decodeFetched x.op x.prefixed with
  | some i => .ok i s1
  | none => .raised (.unrecognizedOpcode x.op x.prefixed) s1

end Sys2Proof.Machine
end

