-- ==== Sys2Proof/Machine/Launch.lean ====
section
/-! DEFINITION. What the host does between steps (70_reset_and_hazards.md rules R280 to R283): reset, load, set up, inspect.
None of it is an instruction; `step` calls nothing of this file. -/

namespace Sys2Proof.Machine

/-- Reset: "Reset is the construction of the machine"; it discards all state, and is the only way out of `Faulted`
(R248, R280). -/
def hostReset (_ : State) : State := State.reset

/-- The host's write of one byte of memory (R283). The address is the host's, not the 16-bit bus's, and does not wrap. A
write at or above `MEM_SIZE` "is simply not a launch state" (R283): that it changes nothing here is DESIGN CHOICE,
unsafe (log 16). -/
def hostWriteByte (c : Config) (addr : Nat) (v : Byte) (s : State) : State :=
  if addr < c.memSize then setMem (s.mem.write addr v) s else s

/-- The host's load of bytes at consecutive addresses (R282). What the loader does with an image that runs past the
store the spec leaves open (91_not_in_source.md N26). DESIGN CHOICE, unsafe (log 16): the bytes at and above `MEM_SIZE`
are dropped, and the address does not wrap, so none of them lands at 0x0000. -/
def hostLoad (c : Config) : Nat → List Byte → State → State
  | _, [], s => s
  | addr, v :: rest, s => hostLoad c (addr + 1) rest (hostWriteByte c addr v s)

/-- The host's write of F as a byte, which "goes through `unpack`" (R283). -/
def hostSetFlagsByte (b : Byte) (s : State) : State := setFlags (unpackFlags b) s

/-- A launch state: "the reset state of rules R38 to R40 with `mem` replaced by the host's image, and with any registers
the host chose to set" (R41), the image as blocks of bytes each at an address. -/
def launch (c : Config) (image : List (Word × List Byte)) (setUp : List (Reg × Byte)) (fByte : Byte) (pc sp : Word) :
    State :=
  let loaded := image.foldl (fun s block => hostLoad c block.1.toNat block.2 s) State.reset
  let registers := setUp.foldl (fun s r => setReg r.1 r.2 s) loaded
  setSp sp (setPc pc (hostSetFlagsByte fByte registers))

/-- The bytes of a table word placed where the next fetch reads, the status such that the next step runs. -/
def placeWord (s : State) (nbits w : Nat) : State :=
  setStatus .running (hostLoad coreConfig s.pc.toNat (wordBytes nbits w) s)

end Sys2Proof.Machine
end

