-- ==== Sys2Proof/Machine/Step.lean ====
section
/-! DEFINITION. One step of the machine (40_step.md rules R110, R116, R117). -/

namespace Sys2Proof.Machine

/-- One step request: "A step is performed only when `status` = `Running`"; a Faulted machine "performs no step and
changes no state, however often the host asks" (R110; log 6). Otherwise fetch, decode, and the meaning with its commit.
The two step-level properties of R119 are about this function. -/
def step (s : State) : Host.Outcome State Fault Refusal :=
  match s.status with
  | .faulted _ => .next s
  | .running =>
    match fetchInstr coreConfig s with
    | .ok i s1 => exec i s1
    | .raised cause s1 => .next (takeFatal cause s1)

/-- `s` with the instruction of a table word stored where `step` fetches next, at PC, PC+1, PC+2: what the host does
when it loads a program (R282; log 14). A byte that would lie at or past 0xFFFF is not stored (log 16). -/
def State.withFetchWord (s : State) (nbits w : Nat) : State := placeWord s nbits w

end Sys2Proof.Machine
end

