-- ==== Sys2Proof/Machine/Execute.lean ====
section
/-! DEFINITION. The execution unit over instruction values (40_step.md rule R115) and the whole step as the one piece of
pseudocode of R117, for either value of the parameters (00_scope.md rule R6). `Step.lean` is the machine; that the two
agree is a statement. -/

namespace Sys2Proof.Machine

/-- Whether a byte load has a handler. All have (R130) but `Load(HLI, HLI)`, which has one where the vocabulary admits it
(R136) and is `UnimplementedInstruction` where not (93_implementation_defined.md U8; log 17). -/
def hasLoadHandler (c : Config) (t : LoadTarget) (src : LoadSource) : Bool :=
  match t, src with
  | .hli, .hli => c.admitsHliPair
  | .hli, .reg _ => true
  | .hli, .d8 => true
  | .reg _, _ => true

/-- `execute(instruction) -> next_pc`: the dispatch table of R115, "exhaustive matches over a closed, finite tag set". -/
def execute (c : Config) (v : InstrValue) (s : State) : Result Word :=
  match v with
  | .nop => noOperation s
  | .halt => noHandler .halt s
  | .load t src => if hasLoadHandler c t src then load c t src s else noHandler (.load t src) s
  | .push p => push c p s
  | .pop p => pop c p s
  | .add r => addToA r s
  | .jump k => jump c k s
  | .call k => call c k s
  | .ret k => ret c k s
  | .multiByteLoad => noHandler .multiByteLoad s

/-- Lines 2 to 8 of `step()` in R117: fetch, decode, execute. -/
def stepBody (c : Config) (s : State) : Result Word :=
  (fetch c s).andThen fun x s1 =>
  match decode x.op x.prefixed with
  | none => unrecognized x.op x.prefixed s1
  | some v => execute c v s1

/-- `step()` as R117 writes it, with the parameters as an argument. -/
def stepWith (c : Config) (s : State) : Answer :=
  match s.status with
  | .faulted _ => .next s
  | .running => commit (stepBody c s)

end Sys2Proof.Machine
end

