-- ==== Sys2Proof/Safety.lean ====
section
/-! DEFINITION. What counts as a safe run and as the end of one (40_step.md rule R120, 60_exceptions.md rule R244), and the
invariant of a state. -/

namespace Sys2Proof.Machine

/-- "a `Faulted` state is terminal and is never a successful final state" (R244). -/
def isRunning (s : State) : Bool :=
  match s.status with
  | .running => true
  | .faulted _ => false

/-- `n` steps, none of which ends in a fatal condition (R244: "a claim about a run takes "no fatal condition raised" as a
premise"). -/
def safeFor : Nat → State → Bool
  | 0, s => isRunning s
  | n + 1, s =>
    isRunning s &&
    match step s with
    | .next t => safeFor n t
    | .fault _ => false
    | .refused _ => false

/-- End (a) of R120: the host stopped after `n` successful steps, in state `t`. -/
def EndsAfter (n : Nat) (s t : State) : Prop := safeFor n s = true ∧ Sys2Proof.core.run n s = .next t

/-- End (b) of R120: after `n` steps the machine has reached `Faulted(cause)`. A program that ends at HALT ends so, with
`unimplementedInstruction .halt`, and a claim must name that cause. -/
def EndsFaulted (n : Nat) (s : State) (cause : Fault) : Prop :=
  ∃ t, Sys2Proof.core.run n s = .next t ∧ t.status = .faulted cause

/-- The causes a step of the machine can record: a byte without an entry in the table asked (R241), the one value
without a handler that some byte decodes to (R242), an address that does not exist (R243). -/
def legalCause (c : Config) : Fault → Bool
  | .unrecognizedOpcode b prefixed => prefixed || (unrecognizedByte b && b != c.prefixByte)
  | .unimplementedInstruction v => v == .halt
  | .busFault addr _ => decide (c.memSize ≤ addr.toNat)

/-- The status is one the machine can be in (R35, R240 to R243). -/
def legalStatus (c : Config) : Status → Bool
  | .running => true
  | .faulted cause => legalCause c cause

/-- The invariant of a state: the store is `MEM_SIZE` bytes in canonical form (R37, R50) and the status is legal. -/
def Inv (s : State) : Prop := s.mem.wf coreConfig = true ∧ legalStatus coreConfig s.status = true

end Sys2Proof.Machine
end

