-- ==== Sys2Proof/Certificates/Slice0/Obligations.lean ====
section
/-! DEFINITION. The statements about the machine, for the provers. Each `def Obligations.<Name>` states one; the
predicates before them say what one row of the opcode table does, and are used by the statements only. -/

namespace Sys2Proof.Claim

open Sys2Proof Sys2Proof.Machine

/-- The two operand bytes at PC+1 and PC+2 exist. -/
def OperandInRange (s : State) : Prop := s.pc ≠ 0xFFFD ∧ s.pc ≠ 0xFFFE

/-- `LD r,r'` (R131): opcode byte, row, and the state it leaves but for PC. -/
def RegLoad (op : Byte) (i : Instr) (result : State → State) : Prop :=
  decodeOpcode op = some i ∧ ∀ s : State, exec i s = .next { result s with pc := s.pc + 1 }

/-- `LD r,(HL)` (R132): `result s v` is the state with the byte read in the target register. -/
def HlLoad (op : Byte) (i : Instr) (result : State → Byte → State) : Prop :=
  decodeOpcode op = some i ∧ ∀ s : State,
    (readPair .hl s ≠ 0xFFFF →
      exec i s = .next { result s (byteAt s (readPair .hl s)) with pc := s.pc + 1 }) ∧
    (readPair .hl s = 0xFFFF → exec i s = .next { s with status := .faulted (.busFault 0xFFFF .read) })

/-- `LD (HL),r` (R133): `value` is the byte stored at `xx[HL]`. -/
def StoreRow (op : Byte) (i : Instr) (value : State → Byte) : Prop :=
  decodeOpcode op = some i ∧ ∀ s : State,
    (readPair .hl s ≠ 0xFFFF →
      ∃ t, exec i s = .next t ∧ byteAt t (readPair .hl s) = value s ∧
        (∀ a : Word, a ≠ readPair .hl s → byteAt t a = byteAt s a) ∧
        { t with mem := s.mem } = { s with pc := s.pc + 1 }) ∧
    (readPair .hl s = 0xFFFF → exec i s = .next { s with status := .faulted (.busFault 0xFFFF .write) })

/-- `ADD A,r` (R171 to R177): `operand` is the register added. -/
def AddRow (op : Byte) (i : Instr) (operand : State → Byte) : Prop :=
  decodeOpcode op = some i ∧ ∀ s : State,
    exec i s = .next { s with
      a := s.a + operand s
      f := { z := decide (s.a + operand s = 0)
             n := false
             h := decide (s.a.toNat % 16 + (operand s).toNat % 16 > 0xF)
             c := decide (s.a.toNat + (operand s).toNat > 0xFF) }
      pc := s.pc + 1 }

/-- `PUSH rr` (R152 to R155): the high and the low byte pushed. -/
def PushRow (op : Byte) (i : Instr) (high low : State → Byte) : Prop :=
  decodeOpcode op = some i ∧ ∀ s : State,
    (2 ≤ s.sp.toNat →
      ∃ t, exec i s = .next t ∧ byteAt t (s.sp - 1) = high s ∧ byteAt t (s.sp - 2) = low s ∧
        (∀ a : Word, a ≠ s.sp - 1 → a ≠ s.sp - 2 → byteAt t a = byteAt s a) ∧
        { t with mem := s.mem } = { s with sp := s.sp - 2, pc := s.pc + 1 }) ∧
    (s.sp = 0x0000 → exec i s = .next { s with sp := 0xFFFF, status := .faulted (.busFault 0xFFFF .write) }) ∧
    (s.sp = 0x0001 →
      ∃ t, exec i s = .next t ∧ byteAt t 0x0000 = high s ∧ (∀ a : Word, a ≠ 0x0000 → byteAt t a = byteAt s a) ∧
        { t with mem := s.mem } = { s with sp := 0xFFFF, status := .faulted (.busFault 0xFFFF .write) })

/-- `POP rr` (R156 to R159): `result s h l` is the state with the popped high and low byte in the pair. -/
def PopRow (op : Byte) (i : Instr) (result : State → Byte → Byte → State) : Prop :=
  decodeOpcode op = some i ∧ ∀ s : State,
    (s.sp ≠ 0xFFFE → s.sp ≠ 0xFFFF →
      exec i s = .next { result s (byteAt s (s.sp + 1)) (byteAt s s.sp) with sp := s.sp + 2, pc := s.pc + 1 }) ∧
    (s.sp = 0xFFFE → exec i s = .next { s with sp := 0xFFFF, status := .faulted (.busFault 0xFFFF .read) }) ∧
    (s.sp = 0xFFFF → exec i s = .next { s with status := .faulted (.busFault 0xFFFF .read) })

/-- `JP` (R203 to R207): `taken` is the condition on the flags. -/
def JumpRow (op : Byte) (i : Instr) (taken : Flags → Bool) : Prop :=
  decodeOpcode op = some i ∧ ∀ s : State,
    (taken s.f = false → exec i s = .next { s with pc := s.pc + 3 }) ∧
    (taken s.f = true → OperandInRange s →
      exec i s = .next { s with pc := byteAt s (s.pc + 2) ++ byteAt s (s.pc + 1) }) ∧
    (taken s.f = true → ¬ OperandInRange s →
      exec i s = .next { s with status := .faulted (.busFault 0xFFFF .read) })

/-- `CALL` (R215 to R220): the operand is what the state after the push holds at PC+1 and PC+2. -/
def CallRow (op : Byte) (i : Instr) (taken : Flags → Bool) : Prop :=
  decodeOpcode op = some i ∧ ∀ s : State,
    (taken s.f = false → exec i s = .next { s with pc := s.pc + 3 }) ∧
    (taken s.f = true → 2 ≤ s.sp.toNat →
      ∃ t, exec i s = .next t ∧ byteAt t (s.sp - 1) ++ byteAt t (s.sp - 2) = s.pc + 3 ∧
        (∀ a : Word, a ≠ s.sp - 1 → a ≠ s.sp - 2 → byteAt t a = byteAt s a) ∧
        (OperandInRange s → { t with mem := s.mem } =
          { s with sp := s.sp - 2, pc := byteAt t (s.pc + 2) ++ byteAt t (s.pc + 1) }) ∧
        (¬ OperandInRange s → { t with mem := s.mem } =
          { s with sp := s.sp - 2, status := .faulted (.busFault 0xFFFF .read) })) ∧
    (taken s.f = true → s.sp = 0x0000 →
      exec i s = .next { s with sp := 0xFFFF, status := .faulted (.busFault 0xFFFF .write) }) ∧
    (taken s.f = true → s.sp = 0x0001 →
      ∃ t, exec i s = .next t ∧ byteAt t 0x0000 = (s.pc + 3).extractLsb' 8 8 ∧
        (∀ a : Word, a ≠ 0x0000 → byteAt t a = byteAt s a) ∧
        { t with mem := s.mem } = { s with sp := 0xFFFF, status := .faulted (.busFault 0xFFFF .write) })

/-- `RET` (R222 to R227). -/
def RetRow (op : Byte) (i : Instr) (taken : Flags → Bool) : Prop :=
  decodeOpcode op = some i ∧ ∀ s : State,
    (taken s.f = false → exec i s = .next { s with pc := s.pc + 1 }) ∧
    (taken s.f = true → s.sp ≠ 0xFFFE → s.sp ≠ 0xFFFF →
      exec i s = .next { s with sp := s.sp + 2, pc := byteAt s (s.sp + 1) ++ byteAt s s.sp }) ∧
    (taken s.f = true → s.sp = 0xFFFE →
      exec i s = .next { s with sp := 0xFFFF, status := .faulted (.busFault 0xFFFF .read) }) ∧
    (taken s.f = true → s.sp = 0xFFFF → exec i s = .next { s with status := .faulted (.busFault 0xFFFF .read) })

/-- The five JP with their conditions. -/
def jumpRows : List (Instr × Cond) :=
  [(.jp, .always), (.jpNZ, .notZero), (.jpZ, .zero), (.jpNC, .notCarry), (.jpC, .carry)]

/-- The five CALL with their conditions. -/
def callRows : List (Instr × Cond) :=
  [(.call, .always), (.callNZ, .notZero), (.callZ, .zero), (.callNC, .notCarry), (.callC, .carry)]

/-- The five RET with their conditions. -/
def retRows : List (Instr × Cond) :=
  [(.ret, .always), (.retNZ, .notZero), (.retZ, .zero), (.retNC, .notCarry), (.retC, .carry)]

/-- The seven LD (HL),r with their source registers. -/
def storeRows : List (Instr × Reg) :=
  [(.ldMemB, .b), (.ldMemC, .c), (.ldMemD, .d), (.ldMemE, .e), (.ldMemH, .h), (.ldMemL, .l), (.ldMemA, .a)]

/-- The addresses an instruction stores to (R51): HL for LD (HL),r; SP-1 and SP-2 for PUSH and a taken CALL. -/
def storedAddresses (i : Instr) (s : State) : List Word :=
  match valueOf i with
  | some (.load .hli _) => [readPair .hl s]
  | some (.push _) => [s.sp - 1, s.sp - 2]
  | some (.call k) => if condHolds k s.f then [s.sp - 1, s.sp - 2] else []
  | _ => []

/-- The general registers an instruction writes (R21). -/
def writesReg (i : Instr) (r : Reg) : Bool :=
  match valueOf i with
  | some (.load (.reg t) _) => r == t
  | some (.add _) => r == .a
  | some (.pop .bc) => r == .b || r == .c
  | some (.pop .de) => r == .d || r == .e
  | some (.pop .hl) => r == .h || r == .l
  | some (.pop .af) => r == .a
  | _ => false

/-- The instructions that move SP (R34): PUSH, POP, a taken CALL, a taken RET. -/
def movesSp (i : Instr) (s : State) : Bool :=
  match valueOf i with
  | some (.push _) => true
  | some (.pop _) => true
  | some (.call k) => condHolds k s.f
  | some (.ret k) => condHolds k s.f
  | _ => false

/-- A JP, CALL or RET whose condition holds. -/
def transfersControl (i : Instr) (s : State) : Bool :=
  match valueOf i with
  | some (.jump k) => condHolds k s.f
  | some (.call k) => condHolds k s.f
  | some (.ret k) => condHolds k s.f
  | _ => false

end Sys2Proof.Claim

open Sys2Proof Sys2Proof.Machine Sys2Proof.Claim

/-- Words written out bit by bit decode to the instruction they stand for. From 30_encoding.md section 2 (R82 to R87), 40_step.md section 3 (R113). -/
def Obligations.SampleWordsDecodeToTheirInstructions : Prop :=
  decodeTableWord 8 0b00000000 = some .nop ∧
  decodeTableWord 8 0b01110110 = some .halt ∧
  decodeTableWord 8 0b01000001 = some .ldBC ∧
  decodeTableWord 8 0b01111110 = some .ldAMem ∧
  decodeTableWord 8 0b01110111 = some .ldMemA ∧
  decodeTableWord 8 0b10000101 = some .addAL ∧
  decodeTableWord 8 0b11110101 = some .pushAF ∧
  decodeTableWord 8 0b11010001 = some .popDE ∧
  decodeTableWord 24 0b000100100011010011010010 = some .jpNC ∧
  decodeTableWord 24 0b000100100011010011011100 = some .callC ∧
  decodeTableWord 8 0b11001000 = some .retZ ∧
  decodeTableWord 16 0b0111110011001011 = some (.prefixOp 0x7C) ∧
  decodeTableWord 8 0b10000110 = none

/-- Decoding an assembled instruction gives it back, and whatever decodes is an encoding. From 30_encoding.md sections 1 to 4 (R80 to R89), 40_step.md section 3 (R113, R114). -/
def Obligations.DecodingAndEncodingAgree : Prop :=
  (∀ (i : Instr) (a16 : Word) (rest : List Byte), i.wellFormed = true →
    decodeBytes (assemble i a16 ++ rest) = .ok i (operandBytes i a16 ++ rest)) ∧
  (∀ (bytes : List Byte) (i : Instr) (rest : List Byte),
    decodeBytes bytes = .ok i rest → bytes = encode i ++ rest)

/-- A byte outside the 95 opcodes decodes to Unrecognized, and a step that meets one takes UnrecognizedOpcode. From R90. -/
def Obligations.EveryOtherByteIsUnrecognized : Prop :=
  (∀ b : Byte, decode b false = none ↔ (b = 0xCB ∨ unrecognizedByte b = true)) ∧
  ((List.range 256).filter fun n => unrecognizedByte (BitVec.ofNat 8 n)).length = 160 ∧
  (∀ s : State, s.status = .running → s.pc ≠ 0xFFFF → unrecognizedByte (byteAt s s.pc) = true →
    step s = .next { s with status := .faulted (.unrecognizedOpcode (byteAt s s.pc) false) })

/-- The decoder yields each instruction value on exactly the bytes listed for it. From 40_step.md section 2 (R112), 40_step.md section 5 (R119), 30_encoding.md section 2 (R83). -/
def Obligations.DecoderYieldsTheListedInstructionValues : Prop :=
  (∀ t ∈ List.range 8, ∀ s ∈ List.range 8, (t, s) ≠ (6, 6) →
    decode (BitVec.ofNat 8 (0x40 + 8 * t + s)) false =
      some (.load ([.reg .b, .reg .c, .reg .d, .reg .e, .reg .h, .reg .l, .hli, .reg .a].getD t .hli)
        ([.reg .b, .reg .c, .reg .d, .reg .e, .reg .h, .reg .l, .hli, .reg .a].getD s .d8))) ∧
  decode 0x00 false = some .nop ∧ decode 0x76 false = some .halt ∧
  decode 0xF5 false = some (.push .af) ∧ decode 0xC5 false = some (.push .bc) ∧
  decode 0xD5 false = some (.push .de) ∧ decode 0xE5 false = some (.push .hl) ∧
  decode 0xF1 false = some (.pop .af) ∧ decode 0xC1 false = some (.pop .bc) ∧
  decode 0xD1 false = some (.pop .de) ∧ decode 0xE1 false = some (.pop .hl) ∧
  decode 0x87 false = some (.add .a) ∧ decode 0x80 false = some (.add .b) ∧ decode 0x81 false = some (.add .c) ∧
  decode 0x82 false = some (.add .d) ∧ decode 0x83 false = some (.add .e) ∧ decode 0x84 false = some (.add .h) ∧
  decode 0x85 false = some (.add .l) ∧
  decode 0xC3 false = some (.jump .always) ∧ decode 0xC2 false = some (.jump .notZero) ∧
  decode 0xCA false = some (.jump .zero) ∧ decode 0xD2 false = some (.jump .notCarry) ∧
  decode 0xDA false = some (.jump .carry) ∧
  decode 0xCD false = some (.call .always) ∧ decode 0xC4 false = some (.call .notZero) ∧
  decode 0xCC false = some (.call .zero) ∧ decode 0xD4 false = some (.call .notCarry) ∧
  decode 0xDC false = some (.call .carry) ∧
  decode 0xC9 false = some (.ret .always) ∧ decode 0xC0 false = some (.ret .notZero) ∧
  decode 0xC8 false = some (.ret .zero) ∧ decode 0xD0 false = some (.ret .notCarry) ∧
  decode 0xD8 false = some (.ret .carry) ∧
  (∀ v : InstrValue, v.wellFormed = true ↔ ∃ b : Byte, decode b false = some v) ∧
  (∀ (b : Byte) (v : InstrValue), decode b false = some v → encodeValue v = some b)

/-- The flags byte holds z, n, h, c in bits 7 to 4 and zero below, and packs and unpacks back. From R23, R24, R25. -/
def Obligations.FlagsByteLayoutAndRoundTrip : Prop :=
  (∀ f : Flags,
    (packFlags f).getLsbD 7 = f.z ∧ (packFlags f).getLsbD 6 = f.n ∧ (packFlags f).getLsbD 5 = f.h ∧
    (packFlags f).getLsbD 4 = f.c ∧ (packFlags f).toNat % 16 = 0) ∧
  (∀ b : Byte, unpackFlags b = { z := b.getLsbD 7, n := b.getLsbD 6, h := b.getLsbD 5, c := b.getLsbD 4 }) ∧
  (∀ f : Flags, unpackFlags (packFlags f) = f) ∧
  (∀ v : Byte, packFlags (unpackFlags v) = v &&& 0xF0)

/-- The pair views concatenate their two registers, and reading after writing gives the value back. From R26, R27, R28, R29. -/
def Obligations.PairViewsReadWriteAndRoundTrip : Prop :=
  (∀ s : State, readPair .bc s = s.b ++ s.c ∧ readPair .de s = s.d ++ s.e ∧ readPair .hl s = s.h ++ s.l ∧
    readPair .af s = s.a ++ packFlags s.f ∧ (readPair .af s).toNat % 16 = 0) ∧
  (∀ (w : Word) (s : State),
    writePair .bc w s = { s with b := w.extractLsb' 8 8, c := w.extractLsb' 0 8 } ∧
    writePair .de w s = { s with d := w.extractLsb' 8 8, e := w.extractLsb' 0 8 } ∧
    writePair .hl w s = { s with h := w.extractLsb' 8 8, l := w.extractLsb' 0 8 } ∧
    writePair .af w s = { s with a := w.extractLsb' 8 8, f := unpackFlags (w.extractLsb' 0 8) }) ∧
  (∀ (p : Pair) (w : Word) (s : State), p ≠ .af → readPair p (writePair p w s) = w) ∧
  (∀ (w : Word) (s : State), readPair .af (writePair .af w s) = w &&& 0xFFF0)

/-- add8 gives the wrapped sum, zero, false, the carry out of bit 3 and the carry out of bit 7. From R170. -/
def Obligations.AddSetsResultAndFourFlags : Prop :=
  ∀ x y : Byte, add8 x y =
    (x + y, { z := decide (x + y = 0)
              n := false
              h := decide (x.toNat % 16 + y.toNat % 16 > 0xF)
              c := decide (x.toNat + y.toNat > 0xFF) })

/-- The arithmetic laws of the add: carries account for the lost bits, it commutes, the old flags do not matter. From 43_add.md section 3 (R178). -/
def Obligations.AddLaws : Prop :=
  (∀ x y : Byte,
    x.toNat + y.toNat = 256 * (add8 x y).2.c.toNat + (add8 x y).1.toNat ∧
    x.toNat % 16 + y.toNat % 16 = 16 * (add8 x y).2.h.toNat + (add8 x y).1.toNat % 16 ∧
    (add8 x y).2.n = false ∧
    ((add8 x y).2.z = true ↔ (x.toNat + y.toNat = 0 ∨ x.toNat + y.toNat = 256)) ∧
    (((add8 x y).2.z = true ∧ (add8 x y).2.c = true) ↔ x.toNat + y.toNat = 256) ∧
    (x.toNat + y.toNat = 256 → ((add8 x y).2.h = true ↔ ¬ (x.toNat % 16 = 0 ∧ y.toNat % 16 = 0))) ∧
    add8 x y = add8 y x ∧
    add8 x 0 = (x, { z := decide (x = 0), n := false, h := false, c := false }) ∧
    (-128 ≤ x.toInt + y.toInt → x.toInt + y.toInt ≤ 127 → (add8 x y).1.toInt = x.toInt + y.toInt)) ∧
  (∀ i ∈ [Instr.addAB, .addAC, .addAD, .addAE, .addAH, .addAL, .addAA], ∀ (s : State) (f : Flags),
    exec i { s with f := f } = exec i s)

/-- Each ADD A,r leaves the sum in A and all four flags, and changes nothing else but PC. From R171, R172, R173, R174, R175, R176, R177. -/
def Obligations.AddInstructionsWriteAccumulatorAndFlags : Prop :=
  AddRow 0x80 .addAB (fun s => s.b) ∧
  AddRow 0x81 .addAC (fun s => s.c) ∧
  AddRow 0x82 .addAD (fun s => s.d) ∧
  AddRow 0x83 .addAE (fun s => s.e) ∧
  AddRow 0x84 .addAH (fun s => s.h) ∧
  AddRow 0x85 .addAL (fun s => s.l) ∧
  AddRow 0x87 .addAA (fun s => s.a)

/-- Each of the 49 LD r,r' copies its source register into its target and advances PC by one. From R131. -/
def Obligations.RegisterLoadsCopyTheSource : Prop :=
  RegLoad 0x40 .ldBB (fun s => { s with b := s.b }) ∧
  RegLoad 0x41 .ldBC (fun s => { s with b := s.c }) ∧
  RegLoad 0x42 .ldBD (fun s => { s with b := s.d }) ∧
  RegLoad 0x43 .ldBE (fun s => { s with b := s.e }) ∧
  RegLoad 0x44 .ldBH (fun s => { s with b := s.h }) ∧
  RegLoad 0x45 .ldBL (fun s => { s with b := s.l }) ∧
  RegLoad 0x47 .ldBA (fun s => { s with b := s.a }) ∧
  RegLoad 0x48 .ldCB (fun s => { s with c := s.b }) ∧
  RegLoad 0x49 .ldCC (fun s => { s with c := s.c }) ∧
  RegLoad 0x4A .ldCD (fun s => { s with c := s.d }) ∧
  RegLoad 0x4B .ldCE (fun s => { s with c := s.e }) ∧
  RegLoad 0x4C .ldCH (fun s => { s with c := s.h }) ∧
  RegLoad 0x4D .ldCL (fun s => { s with c := s.l }) ∧
  RegLoad 0x4F .ldCA (fun s => { s with c := s.a }) ∧
  RegLoad 0x50 .ldDB (fun s => { s with d := s.b }) ∧
  RegLoad 0x51 .ldDC (fun s => { s with d := s.c }) ∧
  RegLoad 0x52 .ldDD (fun s => { s with d := s.d }) ∧
  RegLoad 0x53 .ldDE (fun s => { s with d := s.e }) ∧
  RegLoad 0x54 .ldDH (fun s => { s with d := s.h }) ∧
  RegLoad 0x55 .ldDL (fun s => { s with d := s.l }) ∧
  RegLoad 0x57 .ldDA (fun s => { s with d := s.a }) ∧
  RegLoad 0x58 .ldEB (fun s => { s with e := s.b }) ∧
  RegLoad 0x59 .ldEC (fun s => { s with e := s.c }) ∧
  RegLoad 0x5A .ldED (fun s => { s with e := s.d }) ∧
  RegLoad 0x5B .ldEE (fun s => { s with e := s.e }) ∧
  RegLoad 0x5C .ldEH (fun s => { s with e := s.h }) ∧
  RegLoad 0x5D .ldEL (fun s => { s with e := s.l }) ∧
  RegLoad 0x5F .ldEA (fun s => { s with e := s.a }) ∧
  RegLoad 0x60 .ldHB (fun s => { s with h := s.b }) ∧
  RegLoad 0x61 .ldHC (fun s => { s with h := s.c }) ∧
  RegLoad 0x62 .ldHD (fun s => { s with h := s.d }) ∧
  RegLoad 0x63 .ldHE (fun s => { s with h := s.e }) ∧
  RegLoad 0x64 .ldHH (fun s => { s with h := s.h }) ∧
  RegLoad 0x65 .ldHL (fun s => { s with h := s.l }) ∧
  RegLoad 0x67 .ldHA (fun s => { s with h := s.a }) ∧
  RegLoad 0x68 .ldLB (fun s => { s with l := s.b }) ∧
  RegLoad 0x69 .ldLC (fun s => { s with l := s.c }) ∧
  RegLoad 0x6A .ldLD (fun s => { s with l := s.d }) ∧
  RegLoad 0x6B .ldLE (fun s => { s with l := s.e }) ∧
  RegLoad 0x6C .ldLH (fun s => { s with l := s.h }) ∧
  RegLoad 0x6D .ldLL (fun s => { s with l := s.l }) ∧
  RegLoad 0x6F .ldLA (fun s => { s with l := s.a }) ∧
  RegLoad 0x78 .ldAB (fun s => { s with a := s.b }) ∧
  RegLoad 0x79 .ldAC (fun s => { s with a := s.c }) ∧
  RegLoad 0x7A .ldAD (fun s => { s with a := s.d }) ∧
  RegLoad 0x7B .ldAE (fun s => { s with a := s.e }) ∧
  RegLoad 0x7C .ldAH (fun s => { s with a := s.h }) ∧
  RegLoad 0x7D .ldAL (fun s => { s with a := s.l }) ∧
  RegLoad 0x7F .ldAA (fun s => { s with a := s.a })

/-- Each LD r,(HL) reads the byte at the old HL, or takes BusFault when HL is 0xFFFF. From R132. -/
def Obligations.LoadsThroughHlReadMemory : Prop :=
  HlLoad 0x46 .ldBMem (fun s v => { s with b := v }) ∧
  HlLoad 0x4E .ldCMem (fun s v => { s with c := v }) ∧
  HlLoad 0x56 .ldDMem (fun s v => { s with d := v }) ∧
  HlLoad 0x5E .ldEMem (fun s v => { s with e := v }) ∧
  HlLoad 0x66 .ldHMem (fun s v => { s with h := v }) ∧
  HlLoad 0x6E .ldLMem (fun s v => { s with l := v }) ∧
  HlLoad 0x7E .ldAMem (fun s v => { s with a := v })

/-- Each LD (HL),r writes r at HL and no other byte, or takes BusFault when HL is 0xFFFF. From 41_load.md section 4 (R133), 30_encoding.md section 2 (R83), log 5 (0x70 to 0x75 and 0x77 decode, the spec's decision D5). -/
def Obligations.StoresThroughHlWriteOneByte : Prop :=
  StoreRow 0x70 .ldMemB (fun s => s.b) ∧
  StoreRow 0x71 .ldMemC (fun s => s.c) ∧
  StoreRow 0x72 .ldMemD (fun s => s.d) ∧
  StoreRow 0x73 .ldMemE (fun s => s.e) ∧
  StoreRow 0x74 .ldMemH (fun s => s.h) ∧
  StoreRow 0x75 .ldMemL (fun s => s.l) ∧
  StoreRow 0x77 .ldMemA (fun s => s.a)

/-- Each decodable load leaves F, SP and status and changes only its target, when it is not stopped by a fault. From 41_load.md section 4 (R134). -/
def Obligations.DecodableLoadsChangeOneThing : Prop :=
  ∀ (i : Instr) (t : LoadTarget) (src : LoadSource) (s u : State),
    valueOf i = some (.load t src) → exec i s = .next u → u.status = s.status →
    u.f = s.f ∧ u.sp = s.sp ∧ (s.status = .running → u.pc = s.pc + 1) ∧
    (∀ r : Reg, t ≠ .reg r → getReg r u = getReg r s) ∧
    (∀ a : Word, (t = .hli → a ≠ readPair .hl s) → byteAt u a = byteAt s a)

/-- The loads without an opcode have their meaning in the execution unit and no byte decodes to them. From 41_load.md sections 5 and 6 (R135, R136, R137), log 11 (the name multiByteLoad is the model's), 93_implementation_defined.md part 1 (U8), log 17 (how R136 and U8 are read together). -/
def Obligations.LoadsWithoutAnOpcode : Prop :=
  (∀ (r : Reg) (s : State), s.pc + 1 ≠ 0xFFFF →
    execute coreConfig (.load (.reg r) .d8) s = .ok (s.pc + 2) (setReg r (byteAt s (s.pc + 1)) s)) ∧
  (∀ (t : LoadTarget) (s : State), s.pc + 1 = 0xFFFF →
    execute coreConfig (.load t .d8) s = .raised (.busFault 0xFFFF .read) s) ∧
  (∀ s : State, s.pc + 1 ≠ 0xFFFF → readPair .hl s ≠ 0xFFFF →
    ∃ t, execute coreConfig (.load .hli .d8) s = .ok (s.pc + 2) t ∧
      byteAt t (readPair .hl s) = byteAt s (s.pc + 1) ∧
      (∀ a, a ≠ readPair .hl s → byteAt t a = byteAt s a) ∧ { t with mem := s.mem } = s) ∧
  (∀ (c : Config) (s : State), c.admitsHliPair = true → (readPair .hl s).toNat < c.memSize →
    ∃ t, execute c (.load .hli .hli) s = .ok (s.pc + 1) t ∧
      (∀ a, byteAt t a = byteAt s a) ∧ { t with mem := s.mem } = s) ∧
  (∀ (c : Config) (s : State), c.admitsHliPair = true → c.memSize ≤ (readPair .hl s).toNat →
    execute c (.load .hli .hli) s = .raised (.busFault (readPair .hl s) .read) s) ∧
  (∀ (c : Config) (s : State), c.admitsHliPair = false →
    execute c (.load .hli .hli) s = .raised (.unimplementedInstruction (.load .hli .hli)) s) ∧
  (∀ s : State, execute coreConfig (.load .hli .hli) s = .raised (.unimplementedInstruction (.load .hli .hli)) s) ∧
  (∀ s : State, execute coreConfig .multiByteLoad s = .raised (.unimplementedInstruction .multiByteLoad) s) ∧
  (∀ (b : Byte) (prefixed : Bool) (t : LoadTarget),
    decode b prefixed ≠ some (.load t .d8) ∧ decode b prefixed ≠ some (.load .hli .hli) ∧
    decode b prefixed ≠ some .multiByteLoad)

/-- Each PUSH writes its pair high byte first below SP, and is stopped half done when SP is 0 or 1. From R152, R153, R154, R155. -/
def Obligations.PushStoresThePairBelowSp : Prop :=
  PushRow 0xC5 .pushBC (fun s => s.b) (fun s => s.c) ∧
  PushRow 0xD5 .pushDE (fun s => s.d) (fun s => s.e) ∧
  PushRow 0xE5 .pushHL (fun s => s.h) (fun s => s.l) ∧
  PushRow 0xF5 .pushAF (fun s => s.a) (fun s => packFlags s.f)

/-- Each POP loads its pair from the bytes at SP and SP+1, and is stopped when one of them does not exist. From R156, R157, R158, R159. -/
def Obligations.PopLoadsThePairFromSp : Prop :=
  PopRow 0xC1 .popBC (fun s h l => { s with b := h, c := l }) ∧
  PopRow 0xD1 .popDE (fun s h l => { s with d := h, e := l }) ∧
  PopRow 0xE1 .popHL (fun s h l => { s with h := h, l := l }) ∧
  PopRow 0xF1 .popAF (fun s h l =>
    { s with a := h, f := { z := l.getLsbD 7, n := l.getLsbD 6, h := l.getLsbD 5, c := l.getLsbD 4 } })

/-- push16 and pop16 at the bottom and the top of the address space, for both sizes of the store. From 42_stack.md section 4 (R161), 10_state.md section 5 (R33). -/
def Obligations.StackPrimitivesAtTheEdges : Prop :=
  (∀ (c : Config) (w : Word) (s : State), c.memSize = 0xFFFF →
    (s.sp = 0x0000 → push16 c w s = .raised (.busFault 0xFFFF .write) { s with sp := 0xFFFF }) ∧
    (s.sp = 0x0001 → ∃ t, push16 c w s = .raised (.busFault 0xFFFF .write) t ∧
      byteAt t 0x0000 = w.extractLsb' 8 8 ∧ (∀ a, a ≠ 0x0000 → byteAt t a = byteAt s a) ∧
      { t with mem := s.mem } = { s with sp := 0xFFFF }) ∧
    (s.sp = 0x0002 → ∃ t, push16 c w s = .ok () t ∧ t.sp = 0x0000) ∧
    (s.sp = 0xFFFF → ∃ t, push16 c w s = .ok () t ∧ t.sp = 0xFFFD ∧
      byteAt t 0xFFFE = w.extractLsb' 8 8 ∧ byteAt t 0xFFFD = w.extractLsb' 0 8) ∧
    (s.sp = 0xFFFD → pop16 c s = .ok (byteAt s 0xFFFE ++ byteAt s 0xFFFD) { s with sp := 0xFFFF }) ∧
    (s.sp = 0xFFFE → pop16 c s = .raised (.busFault 0xFFFF .read) { s with sp := 0xFFFF }) ∧
    (s.sp = 0xFFFF → pop16 c s = .raised (.busFault 0xFFFF .read) s) ∧
    (∀ t, push16 c w s = .ok () t → t.sp.toNat + 2 = s.sp.toNat) ∧
    (∀ v t, pop16 c s = .ok v t → t.sp.toNat = s.sp.toNat + 2)) ∧
  (∀ (c : Config) (w : Word) (s : State), c.memSize = 0x10000 →
    (∃ t, push16 c w s = .ok () t ∧ t.sp = s.sp - 2) ∧
    (∃ v t, pop16 c s = .ok v t ∧ t.sp = s.sp + 2))

/-- A pushed word pops back with SP restored; PUSH p then POP q copies p to q. From R160. -/
def Obligations.PushThenPopReturnsTheWord : Prop :=
  (∀ (c : Config) (w : Word) (s : State), (s.sp - 1).toNat < c.memSize → (s.sp - 2).toNat < c.memSize →
    ∃ t, push16 c w s = .ok () t ∧ pop16 c t = .ok w { t with sp := s.sp } ∧
      byteAt t (s.sp - 1) = w.extractLsb' 8 8 ∧ byteAt t (s.sp - 2) = w.extractLsb' 0 8 ∧
      { t with mem := s.mem, sp := s.sp } = s) ∧
  (∀ (c : Config) (p q : Pair) (s : State), (s.sp - 1).toNat < c.memSize → (s.sp - 2).toNat < c.memSize →
    ∃ t u, push c p s = .ok (s.pc + 1) t ∧ pop c q t = .ok (s.pc + 1) u ∧ u.sp = s.sp ∧
      readPair q u = (if q = .af then readPair p s &&& 0xFFF0 else readPair p s))

/-- Each JP goes to its operand when its condition holds and to PC+3 otherwise, changing nothing but PC. From R203, R204, R205, R206, R207. -/
def Obligations.JumpsFollowTheirCondition : Prop :=
  JumpRow 0xC3 .jp (fun _ => true) ∧
  JumpRow 0xC2 .jpNZ (fun f => !f.z) ∧
  JumpRow 0xCA .jpZ (fun f => f.z) ∧
  JumpRow 0xD2 .jpNC (fun f => !f.c) ∧
  JumpRow 0xDA .jpC (fun f => f.c)

/-- Each CALL pushes PC+3 and goes to its operand, read after the push, or goes to PC+3 when not taken. From R216, R217, R218, R219, R220. -/
def Obligations.CallsPushTheReturnAddressAndJump : Prop :=
  CallRow 0xCD .call (fun _ => true) ∧
  CallRow 0xC4 .callNZ (fun f => !f.z) ∧
  CallRow 0xCC .callZ (fun f => f.z) ∧
  CallRow 0xD4 .callNC (fun f => !f.c) ∧
  CallRow 0xDC .callC (fun f => f.c)

/-- A taken CALL whose push lands on its operand jumps where the pushed bytes say. From 46_call_return.md section 1 (R221), 46_call_return.md section 1 (R215). -/
def Obligations.CallOverItsOwnOperandReadsThePushedBytes : Prop :=
  ∀ x ∈ callRows, ∀ s : State, condHolds x.2 s.f = true → 2 ≤ s.sp.toNat → OperandInRange s →
    ∃ t, exec x.1 s = .next t ∧
      (s.sp = s.pc + 3 → t.pc = s.pc + 3) ∧
      (s.sp = s.pc + 2 → t.pc = byteAt s (s.pc + 2) ++ (s.pc + 3).extractLsb' 8 8) ∧
      (s.sp = s.pc + 4 → t.pc = (s.pc + 3).extractLsb' 0 8 ++ byteAt s (s.pc + 1))

/-- Each RET goes to the word popped when its condition holds and to PC+1 otherwise. From R223, R224, R225, R226, R227. -/
def Obligations.ReturnsFollowTheirCondition : Prop :=
  RetRow 0xC9 .ret (fun _ => true) ∧
  RetRow 0xC0 .retNZ (fun f => !f.z) ∧
  RetRow 0xC8 .retZ (fun f => f.z) ∧
  RetRow 0xD0 .retNC (fun f => !f.c) ∧
  RetRow 0xD8 .retC (fun f => f.c)

/-- A taken RET with SP where a taken CALL left it, the two bytes intact, goes after the call and restores SP. From 46_call_return.md section 3 (R228), 42_stack.md section 4 (R160). -/
def Obligations.ReturnUndoesItsCall : Prop :=
  ∀ x ∈ callRows, ∀ y ∈ retRows, ∀ s t u : State,
    s.status = .running → condHolds x.2 s.f = true → exec x.1 s = .next t → t.status = .running →
    u.sp = t.sp → byteAt u t.sp = byteAt t t.sp → byteAt u (t.sp + 1) = byteAt t (t.sp + 1) →
    condHolds y.2 u.f = true →
    exec y.1 u = .next { u with pc := s.pc + 3, sp := s.sp }

/-- NOP changes nothing but PC, and an empty memory runs NOPs up to the missing top address. From R190. -/
def Obligations.NopAdvancesPcOnly : Prop :=
  decodeOpcode 0x00 = some .nop ∧
  (∀ s : State, exec .nop s = .next { s with pc := s.pc + 1 }) ∧
  (∀ s : State, s.status = .running → s.pc ≠ 0xFFFF → byteAt s s.pc = 0x00 →
    step s = .next { s with pc := s.pc + 1 }) ∧
  (∀ s : State, s.status = .running → s.pc = 0x0000 → s.mem = [] →
    (∀ n : Nat, n ≤ 65535 → Sys2Proof.core.run n s = .next { s with pc := BitVec.ofNat 16 n }) ∧
    Sys2Proof.core.run 65536 s = .next { s with pc := 0xFFFF, status := .faulted (.busFault 0xFFFF .read) })

/-- HALT takes UnimplementedInstruction(Halt), changes nothing but the status, and only it does so. From R191. -/
def Obligations.HaltIsDecodedAndTakesUnimplementedInstruction : Prop :=
  decodeOpcode 0x76 = some .halt ∧
  (∀ s : State, exec .halt s = .next { s with status := .faulted (.unimplementedInstruction .halt) }) ∧
  (∀ s : State, s.status = .running → s.pc ≠ 0xFFFF → byteAt s s.pc = 0x76 →
    step s = .next { s with status := .faulted (.unimplementedInstruction .halt) } ∧
    step { s with status := .faulted (.unimplementedInstruction .halt) } =
      .next { s with status := .faulted (.unimplementedInstruction .halt) }) ∧
  (∀ (s t : State) (v : InstrValue), s.status = .running → step s = .next t →
    t.status = .faulted (.unimplementedInstruction v) → v = .halt ∧ byteAt s s.pc = 0x76)

/-- The prefix makes the step read a second byte, which is always Unrecognized. From 30_encoding.md section 5 (R91, R92), 40_step.md section 3 (R113), log 2 (PREFIX_BYTE = 0xCB, the decision D3), log 10 (that the row PREFIX is a constructor with a meaning is the model's choice). -/
def Obligations.PrefixedOpcodesAreAllUnrecognized : Prop :=
  (∀ b : Byte, decode b true = none) ∧
  (∀ (b : Byte) (s : State),
    exec (.prefixOp b) s = .next { s with status := .faulted (.unrecognizedOpcode b true) }) ∧
  (∀ s : State, s.status = .running → s.pc ≠ 0xFFFF → byteAt s s.pc = 0xCB →
    (s.pc ≠ 0xFFFE →
      step s = .next { s with status := .faulted (.unrecognizedOpcode (byteAt s (s.pc + 1)) true) }) ∧
    (s.pc = 0xFFFE → step s = .next { s with status := .faulted (.busFault 0xFFFF .read) })) ∧
  (∀ s : State, s.pc ≠ 0xFFFF → byteAt s s.pc ≠ 0xCB →
    fetch coreConfig s = .ok { op := byteAt s s.pc, prefixed := false } s)

/-- A step begins by reading the byte at PC, which faults exactly at 0xFFFF; the fetch moves nothing. From R111. -/
def Obligations.FetchReadsTheByteAtPc : Prop :=
  (∀ s : State, s.pc = 0xFFFF → fetch coreConfig s = .raised (.busFault 0xFFFF .read) s) ∧
  (∀ s : State, s.status = .running → s.pc = 0xFFFF →
    step s = .next { s with status := .faulted (.busFault 0xFFFF .read) }) ∧
  (∀ s : State, s.pc ≠ 0xFFFF → byteAt s s.pc ≠ 0xCB →
    fetch coreConfig s = .ok { op := byteAt s s.pc, prefixed := false } s)

/-- When the bytes at PC decode to an instruction, a step of a running machine is that instruction. From 40_step.md sections 1 to 4 (R110 to R117). -/
def Obligations.StepRunsTheDecodedInstruction : Prop :=
  ∀ (s : State) (i : Instr) (rest : List Byte), s.status = .running → s.pc ≠ 0xFFFF →
    (byteAt s s.pc = 0xCB → s.pc ≠ 0xFFFE) → i.wellFormed = true →
    decodeBytes [byteAt s s.pc, byteAt s (s.pc + 1), byteAt s (s.pc + 2)] = .ok i rest →
    step s = exec i s

/-- An assembled JP in memory goes to the address it was assembled with. From 20_memory.md section 3 (R56), 30_encoding.md section 3 (R88), 45_jump.md sections 1 and 2 (R201 to R207). -/
def Obligations.AssembledJumpGoesToItsOperand : Prop :=
  ∀ x ∈ jumpRows, ∀ (s : State) (a16 : Word), s.status = .running → s.pc.toNat + 2 < 0xFFFF →
    [byteAt s s.pc, byteAt s (s.pc + 1), byteAt s (s.pc + 2)] = assemble x.1 a16 →
    step s = .next { s with pc := if condHolds x.2 s.f then a16 else s.pc + 3 }

/-- A Faulted machine performs no step and changes no state, however often it is asked. From 40_step.md section 1 (R110), 10_state.md section 7 (R35), 60_exceptions.md section 5 (R248), log 6 (a step request of a Faulted machine answers the same state). -/
def Obligations.FaultedMachineStaysAsItIs : Prop :=
  ∀ (s : State) (cause : Fault), s.status = .faulted cause →
    step s = .next s ∧ ∀ n : Nat, Sys2Proof.core.run n s = .next s

/-- The step through the 96 rows of the table is the step the spec writes as one piece of pseudocode. From 40_step.md section 4 (R115, R116, R117). -/
def Obligations.StepIsThePseudocodeOfTheSpec : Prop :=
  ∀ s : State, step s =
    match s.status with
    | .faulted _ => .next s
    | .running =>
      commit ((memRead coreConfig s.pc s).andThen fun b0 s1 =>
        (if b0 = 0xCB then (memRead coreConfig (s1.pc + 1) s1).andThen fun op s2 => .ok (op, true) s2
          else .ok (b0, false) s1).andThen fun x s3 =>
        match decode x.1 x.2 with
        | none => .raised (.unrecognizedOpcode x.1 x.2) s3
        | some v => execute coreConfig v s3)

/-- Every step answers a next state: no instruction stops the model. From 40_step.md section 5 (R118), 60_exceptions.md section 2 (R244), log 6 (a fatal condition is taken as a next state). -/
def Obligations.EveryStepAnswersANextState : Prop :=
  (∀ s : State, ∃ t, step s = .next t) ∧ (∀ (i : Instr) (s : State), ∃ t, exec i s = .next t)

/-- Every step keeps the store canonical and within MEM_SIZE, and the recorded cause one the machine can raise. From 10_state.md sections 7 and 8 (R35, R37), 20_memory.md section 1 (R50), 60_exceptions.md section 1 (R240 to R243), log 15 (the canonical form of the store). -/
def Obligations.StepKeepsTheInvariant : Prop :=
  ∀ s t : State, Inv s → step s = .next t → Inv t

/-- The state after reset meets the invariant. From 10_state.md section 9 (R38 to R41), log 15. -/
def Obligations.ResetMeetsTheInvariant : Prop :=
  Inv State.reset

/-- After reset every register is zero, the flags are false, PC and SP are 0, memory is zero, the status Running. From R38, R39, R40. -/
def Obligations.ResetLeavesEverythingZero : Prop :=
  (∀ r : Reg, getReg r State.reset = 0x00) ∧
  State.reset.f = { z := false, n := false, h := false, c := false } ∧
  packFlags State.reset.f = 0x00 ∧ readPair .af State.reset = 0x0000 ∧
  State.reset.pc = 0x0000 ∧ State.reset.sp = 0x0000 ∧
  fetch coreConfig State.reset = .ok { op := byteAt State.reset 0x0000, prefixed := false } State.reset ∧
  (∀ a : Word, byteAt State.reset a = 0x00) ∧ State.reset.status = .running

/-- No instruction but ADD A,r and POP AF changes a flag. From 10_state.md section 4 (R30). -/
def Obligations.FlagsChangeOnlyByAddAndPopAf : Prop :=
  ∀ (i : Instr) (s t : State), exec i s = .next t →
    i ∉ [Instr.addAB, .addAC, .addAD, .addAE, .addAH, .addAL, .addAA, .popAF] → t.f = s.f

/-- Memory changes only at HL for a store and at SP-1 and SP-2 for a push or a taken call. From 20_memory.md sections 1 and 2 (R51, R53, R55). -/
def Obligations.MemoryChangesOnlyWhereTheInstructionStores : Prop :=
  ∀ (i : Instr) (s t : State), exec i s = .next t →
    ∀ a : Word, a ∉ storedAddresses i s → byteAt t a = byteAt s a

/-- A register changes only by an instruction that names it as written; SP only by PUSH, POP, CALL and RET. From 10_state.md section 1 (R21), 10_state.md section 6 (R34). -/
def Obligations.RegistersChangeOnlyWhereNamed : Prop :=
  ∀ (i : Instr) (s t : State), exec i s = .next t →
    (∀ r : Reg, writesReg i r = false → getReg r t = getReg r s) ∧
    (movesSp i s = false → t.sp = s.sp) ∧
    (movesSp i s = true → s.status = .running → t.status = .running → t.sp = s.sp - 2 ∨ t.sp = s.sp + 2)

/-- A step that ends in a fatal condition leaves PC, the flags and every general register as they were. From 60_exceptions.md section 2 (R244, R245), 40_step.md section 4 (R116). -/
def Obligations.FatalConditionKeepsPcFlagsAndRegisters : Prop :=
  ∀ (s t : State) (cause : Fault), s.status = .running → step s = .next t → t.status = .faulted cause →
    t.pc = s.pc ∧ t.f = s.f ∧ (∀ r : Reg, getReg r t = getReg r s) ∧
    (t.sp = s.sp ∨ t.sp = s.sp - 1 ∨ t.sp = s.sp - 2 ∨ t.sp = s.sp + 1)

/-- With MEM_SIZE = 0x10000 no step takes a BusFault. From 60_exceptions.md section 1 (R243), 00_scope.md section 4 (R6). -/
def Obligations.FullSizeStoreNeverFaults : Prop :=
  ∀ (c : Config) (s t : State), c.memSize = 0x10000 → s.status = .running → stepWith c s = .next t →
    ∀ (a : Word) (x : Access), t.status ≠ .faulted (.busFault a x)

/-- MemRead returns the byte and changes nothing; MemWrite changes the one byte; both fault out of bounds. From R52, R53. -/
def Obligations.BusPrimitivesReadAndWriteOneByte : Prop :=
  ∀ (c : Config) (a : Word) (v : Byte) (s : State),
    (a.toNat < c.memSize → memRead c a s = .ok (byteAt s a) s) ∧
    (c.memSize ≤ a.toNat → memRead c a s = .raised (.busFault a .read) s) ∧
    (c.memSize ≤ a.toNat → memWrite c a v s = .raised (.busFault a .write) s) ∧
    (a.toNat < c.memSize → ∃ t, memWrite c a v s = .ok () t ∧ memRead c a t = .ok v t ∧ byteAt t a = v ∧
      (∀ b, b ≠ a → byteAt t b = byteAt s b) ∧ { t with mem := s.mem } = s)

/-- Two canonical stores that hold the same bytes are the same data. From 10_state.md section 8 (R37), log 15 (the store as a list in canonical form). -/
def Obligations.StoresThatReadAlikeAreEqual : Prop :=
  ∀ (c : Config) (m₁ m₂ : Memory), m₁.wf c = true → m₂.wf c = true →
    (∀ a : Nat, a < c.memSize → m₁.read a = m₂.read a) → m₁ = m₂

/-- A store over the next instruction is what the next fetch reads. From 20_memory.md section 9 (R67). -/
def Obligations.StoreIsSeenByTheNextFetch : Prop :=
  ∀ x ∈ storeRows, ∀ s : State, readPair .hl s = s.pc + 1 → s.pc + 1 ≠ 0xFFFF → getReg x.2 s ≠ 0xCB →
    ∃ t, exec x.1 s = .next t ∧ t.pc = s.pc + 1 ∧
      fetch coreConfig t = .ok { op := getReg x.2 s, prefixed := false } t

/-- In a machine still running, PC wraps only past an untaken conditional JP or CALL at 0xFFFD or 0xFFFE. From 70_reset_and_hazards.md section 4 (R288), 10_state.md section 5 (R33). -/
def Obligations.WrapShowsOnlyAfterAnUntakenJumpOrCall : Prop :=
  ∀ (s t : State) (i : Instr), s.status = .running → fetchInstr coreConfig s = .ok i s → exec i s = .next t →
    t.status = .running →
    (transfersControl i s = false → t.pc = s.pc + BitVec.ofNat 16 (lengthOf i) ∧
      (65536 ≤ s.pc.toNat + lengthOf i →
        i ∈ [Instr.jpNZ, .jpZ, .jpNC, .jpC, .callNZ, .callZ, .callNC, .callC] ∧ (s.pc = 0xFFFD ∨ s.pc = 0xFFFE))) ∧
    (t.sp = s.sp ∨ t.sp.toNat + 2 = s.sp.toNat ∨ t.sp.toNat = s.sp.toNat + 2)

/-- No instruction but PUSH AF lets n or h influence anything but n and h. From 10_state.md section 4 (R30), 45_jump.md section 1 (R200). -/
def Obligations.SubtractAndHalfCarryReachNothingButPushAf : Prop :=
  ∀ (i : Instr) (s t : State) (n h : Bool), i ≠ .pushAF → exec i s = .next t →
    ∃ t', exec i { s with f := { s.f with n := n, h := h } } = .next t' ∧
      { t' with f := t.f } = t ∧ t'.f.z = t.f.z ∧ t'.f.c = t.f.c

/-- A run of n steps from a running machine ends running after n steps or Faulted, never both. From 40_step.md section 6 (R120), 60_exceptions.md section 2 (R244). -/
def Obligations.RunsEndInOneOfTwoWays : Prop :=
  ∀ (n : Nat) (s : State), isRunning s = true →
    ((∃ t, EndsAfter n s t) ∨ (∃ cause, EndsFaulted n s cause)) ∧
    ¬ ((∃ t, EndsAfter n s t) ∧ (∃ cause, EndsFaulted n s cause))

/-- An instruction word placed at PC is what the next step runs. From 70_reset_and_hazards.md section 2 (R282, R283), log 14 (how a program comes to run). -/
def Obligations.PlacedWordRunsNext : Prop :=
  ∀ (s : State) (nbits w : Nat) (i : Instr), s.pc.toNat < 0xFFFE → decodeTableWord nbits w = some i →
    { s.withFetchWord nbits w with mem := s.mem, status := s.status } = s ∧
    (s.withFetchWord nbits w).status = .running ∧
    step (s.withFetchWord nbits w) = exec i (s.withFetchWord nbits w)
end

