-- ==== Sys2Proof/Laws/State.lean ====
section
/-! SUPPORT. What each update of State leaves in each field: cited instead of unfolding an update. -/

namespace Sys2Proof.Machine

@[simp] theorem setFlags_a (f : Flags) (s : State) : (setFlags f s).a = s.a := rfl
@[simp] theorem setFlags_b (f : Flags) (s : State) : (setFlags f s).b = s.b := rfl
@[simp] theorem setFlags_c (f : Flags) (s : State) : (setFlags f s).c = s.c := rfl
@[simp] theorem setFlags_d (f : Flags) (s : State) : (setFlags f s).d = s.d := rfl
@[simp] theorem setFlags_e (f : Flags) (s : State) : (setFlags f s).e = s.e := rfl
@[simp] theorem setFlags_h (f : Flags) (s : State) : (setFlags f s).h = s.h := rfl
@[simp] theorem setFlags_l (f : Flags) (s : State) : (setFlags f s).l = s.l := rfl
@[simp] theorem setFlags_f (f : Flags) (s : State) : (setFlags f s).f = f := rfl
@[simp] theorem setFlags_pc (f : Flags) (s : State) : (setFlags f s).pc = s.pc := rfl
@[simp] theorem setFlags_sp (f : Flags) (s : State) : (setFlags f s).sp = s.sp := rfl
@[simp] theorem setFlags_mem (f : Flags) (s : State) : (setFlags f s).mem = s.mem := rfl
@[simp] theorem setFlags_status (f : Flags) (s : State) : (setFlags f s).status = s.status := rfl
@[simp] theorem getReg_setFlags (r : Reg) (f : Flags) (s : State) : getReg r (setFlags f s) = getReg r s := by cases r <;> rfl

@[simp] theorem setPc_a (w : Word) (s : State) : (setPc w s).a = s.a := rfl
@[simp] theorem setPc_b (w : Word) (s : State) : (setPc w s).b = s.b := rfl
@[simp] theorem setPc_c (w : Word) (s : State) : (setPc w s).c = s.c := rfl
@[simp] theorem setPc_d (w : Word) (s : State) : (setPc w s).d = s.d := rfl
@[simp] theorem setPc_e (w : Word) (s : State) : (setPc w s).e = s.e := rfl
@[simp] theorem setPc_h (w : Word) (s : State) : (setPc w s).h = s.h := rfl
@[simp] theorem setPc_l (w : Word) (s : State) : (setPc w s).l = s.l := rfl
@[simp] theorem setPc_f (w : Word) (s : State) : (setPc w s).f = s.f := rfl
@[simp] theorem setPc_pc (w : Word) (s : State) : (setPc w s).pc = w := rfl
@[simp] theorem setPc_sp (w : Word) (s : State) : (setPc w s).sp = s.sp := rfl
@[simp] theorem setPc_mem (w : Word) (s : State) : (setPc w s).mem = s.mem := rfl
@[simp] theorem setPc_status (w : Word) (s : State) : (setPc w s).status = s.status := rfl
@[simp] theorem getReg_setPc (r : Reg) (w : Word) (s : State) : getReg r (setPc w s) = getReg r s := by cases r <;> rfl
@[simp] theorem readPair_setPc (p : Pair) (w : Word) (s : State) : readPair p (setPc w s) = readPair p s := by cases p <;> rfl

@[simp] theorem setSp_a (w : Word) (s : State) : (setSp w s).a = s.a := rfl
@[simp] theorem setSp_b (w : Word) (s : State) : (setSp w s).b = s.b := rfl
@[simp] theorem setSp_c (w : Word) (s : State) : (setSp w s).c = s.c := rfl
@[simp] theorem setSp_d (w : Word) (s : State) : (setSp w s).d = s.d := rfl
@[simp] theorem setSp_e (w : Word) (s : State) : (setSp w s).e = s.e := rfl
@[simp] theorem setSp_h (w : Word) (s : State) : (setSp w s).h = s.h := rfl
@[simp] theorem setSp_l (w : Word) (s : State) : (setSp w s).l = s.l := rfl
@[simp] theorem setSp_f (w : Word) (s : State) : (setSp w s).f = s.f := rfl
@[simp] theorem setSp_pc (w : Word) (s : State) : (setSp w s).pc = s.pc := rfl
@[simp] theorem setSp_sp (w : Word) (s : State) : (setSp w s).sp = w := rfl
@[simp] theorem setSp_mem (w : Word) (s : State) : (setSp w s).mem = s.mem := rfl
@[simp] theorem setSp_status (w : Word) (s : State) : (setSp w s).status = s.status := rfl
@[simp] theorem getReg_setSp (r : Reg) (w : Word) (s : State) : getReg r (setSp w s) = getReg r s := by cases r <;> rfl
@[simp] theorem readPair_setSp (p : Pair) (w : Word) (s : State) : readPair p (setSp w s) = readPair p s := by cases p <;> rfl

@[simp] theorem setMem_a (m : Memory) (s : State) : (setMem m s).a = s.a := rfl
@[simp] theorem setMem_b (m : Memory) (s : State) : (setMem m s).b = s.b := rfl
@[simp] theorem setMem_c (m : Memory) (s : State) : (setMem m s).c = s.c := rfl
@[simp] theorem setMem_d (m : Memory) (s : State) : (setMem m s).d = s.d := rfl
@[simp] theorem setMem_e (m : Memory) (s : State) : (setMem m s).e = s.e := rfl
@[simp] theorem setMem_h (m : Memory) (s : State) : (setMem m s).h = s.h := rfl
@[simp] theorem setMem_l (m : Memory) (s : State) : (setMem m s).l = s.l := rfl
@[simp] theorem setMem_f (m : Memory) (s : State) : (setMem m s).f = s.f := rfl
@[simp] theorem setMem_pc (m : Memory) (s : State) : (setMem m s).pc = s.pc := rfl
@[simp] theorem setMem_sp (m : Memory) (s : State) : (setMem m s).sp = s.sp := rfl
@[simp] theorem setMem_mem (m : Memory) (s : State) : (setMem m s).mem = m := rfl
@[simp] theorem setMem_status (m : Memory) (s : State) : (setMem m s).status = s.status := rfl
@[simp] theorem getReg_setMem (r : Reg) (m : Memory) (s : State) : getReg r (setMem m s) = getReg r s := by cases r <;> rfl
@[simp] theorem readPair_setMem (p : Pair) (m : Memory) (s : State) : readPair p (setMem m s) = readPair p s := by cases p <;> rfl

@[simp] theorem setStatus_a (st : Status) (s : State) : (setStatus st s).a = s.a := rfl
@[simp] theorem setStatus_b (st : Status) (s : State) : (setStatus st s).b = s.b := rfl
@[simp] theorem setStatus_c (st : Status) (s : State) : (setStatus st s).c = s.c := rfl
@[simp] theorem setStatus_d (st : Status) (s : State) : (setStatus st s).d = s.d := rfl
@[simp] theorem setStatus_e (st : Status) (s : State) : (setStatus st s).e = s.e := rfl
@[simp] theorem setStatus_h (st : Status) (s : State) : (setStatus st s).h = s.h := rfl
@[simp] theorem setStatus_l (st : Status) (s : State) : (setStatus st s).l = s.l := rfl
@[simp] theorem setStatus_f (st : Status) (s : State) : (setStatus st s).f = s.f := rfl
@[simp] theorem setStatus_pc (st : Status) (s : State) : (setStatus st s).pc = s.pc := rfl
@[simp] theorem setStatus_sp (st : Status) (s : State) : (setStatus st s).sp = s.sp := rfl
@[simp] theorem setStatus_mem (st : Status) (s : State) : (setStatus st s).mem = s.mem := rfl
@[simp] theorem setStatus_status (st : Status) (s : State) : (setStatus st s).status = st := rfl
@[simp] theorem getReg_setStatus (r : Reg) (st : Status) (s : State) : getReg r (setStatus st s) = getReg r s := by cases r <;> rfl
@[simp] theorem readPair_setStatus (p : Pair) (st : Status) (s : State) : readPair p (setStatus st s) = readPair p s := by cases p <;> rfl

@[simp] theorem setReg_f (r : Reg) (v : Byte) (s : State) : (setReg r v s).f = s.f := by cases r <;> rfl
@[simp] theorem setReg_pc (r : Reg) (v : Byte) (s : State) : (setReg r v s).pc = s.pc := by cases r <;> rfl
@[simp] theorem setReg_sp (r : Reg) (v : Byte) (s : State) : (setReg r v s).sp = s.sp := by cases r <;> rfl
@[simp] theorem setReg_mem (r : Reg) (v : Byte) (s : State) : (setReg r v s).mem = s.mem := by cases r <;> rfl
@[simp] theorem setReg_status (r : Reg) (v : Byte) (s : State) : (setReg r v s).status = s.status := by cases r <;> rfl

@[simp] theorem getReg_a (s : State) : getReg .a s = s.a := rfl
@[simp] theorem getReg_b (s : State) : getReg .b s = s.b := rfl
@[simp] theorem getReg_c (s : State) : getReg .c s = s.c := rfl
@[simp] theorem getReg_d (s : State) : getReg .d s = s.d := rfl
@[simp] theorem getReg_e (s : State) : getReg .e s = s.e := rfl
@[simp] theorem getReg_h (s : State) : getReg .h s = s.h := rfl
@[simp] theorem getReg_l (s : State) : getReg .l s = s.l := rfl

@[simp] theorem writePair_pc (p : Pair) (w : Word) (s : State) : (writePair p w s).pc = s.pc := by cases p <;> rfl
@[simp] theorem writePair_sp (p : Pair) (w : Word) (s : State) : (writePair p w s).sp = s.sp := by cases p <;> rfl
@[simp] theorem writePair_mem (p : Pair) (w : Word) (s : State) : (writePair p w s).mem = s.mem := by cases p <;> rfl
@[simp] theorem writePair_status (p : Pair) (w : Word) (s : State) : (writePair p w s).status = s.status := by cases p <;> rfl

@[simp] theorem getReg_setReg_same (r : Reg) (v : Byte) (s : State) : getReg r (setReg r v s) = v := by cases r <;> rfl

theorem getReg_setReg_other {r r' : Reg} (h : r' ≠ r) (v : Byte) (s : State) :
    getReg r' (setReg r v s) = getReg r' s := by
  cases r <;> cases r' <;> first | rfl | exact absurd rfl h

/-- A pair write to BC, DE or HL touches no flag (R27). -/
theorem writePair_f {p : Pair} (h : p ≠ .af) (w : Word) (s : State) : (writePair p w s).f = s.f := by
  cases p <;> first | rfl | exact absurd rfl h

@[simp] theorem setSp_setSp (w w' : Word) (s : State) : setSp w (setSp w' s) = setSp w s := rfl
@[simp] theorem setPc_setPc (w w' : Word) (s : State) : setPc w (setPc w' s) = setPc w s := rfl

@[simp] theorem byteAt_setFlags (f : Flags) (s : State) (a : Word) : byteAt (setFlags f s) a = byteAt s a := rfl
@[simp] theorem byteAt_setPc (w : Word) (s : State) (a : Word) : byteAt (setPc w s) a = byteAt s a := rfl
@[simp] theorem byteAt_setSp (w : Word) (s : State) (a : Word) : byteAt (setSp w s) a = byteAt s a := rfl
@[simp] theorem byteAt_setStatus (st : Status) (s : State) (a : Word) : byteAt (setStatus st s) a = byteAt s a := rfl
@[simp] theorem byteAt_setReg (r : Reg) (v : Byte) (s : State) (a : Word) : byteAt (setReg r v s) a = byteAt s a := by
  cases r <;> rfl
@[simp] theorem byteAt_writePair (p : Pair) (w : Word) (s : State) (a : Word) : byteAt (writePair p w s) a = byteAt s a := by
  cases p <;> rfl
@[simp] theorem byteAt_setMem (m : Memory) (s : State) (a : Word) : byteAt (setMem m s) a = m.read a.toNat := rfl

@[simp] theorem putByte_a (a : Word) (v : Byte) (s : State) : (putByte a v s).a = s.a := rfl
@[simp] theorem putByte_b (a : Word) (v : Byte) (s : State) : (putByte a v s).b = s.b := rfl
@[simp] theorem putByte_c (a : Word) (v : Byte) (s : State) : (putByte a v s).c = s.c := rfl
@[simp] theorem putByte_d (a : Word) (v : Byte) (s : State) : (putByte a v s).d = s.d := rfl
@[simp] theorem putByte_e (a : Word) (v : Byte) (s : State) : (putByte a v s).e = s.e := rfl
@[simp] theorem putByte_h (a : Word) (v : Byte) (s : State) : (putByte a v s).h = s.h := rfl
@[simp] theorem putByte_l (a : Word) (v : Byte) (s : State) : (putByte a v s).l = s.l := rfl
@[simp] theorem putByte_f (a : Word) (v : Byte) (s : State) : (putByte a v s).f = s.f := rfl
@[simp] theorem putByte_pc (a : Word) (v : Byte) (s : State) : (putByte a v s).pc = s.pc := rfl
@[simp] theorem putByte_sp (a : Word) (v : Byte) (s : State) : (putByte a v s).sp = s.sp := rfl
@[simp] theorem putByte_status (a : Word) (v : Byte) (s : State) : (putByte a v s).status = s.status := rfl
@[simp] theorem getReg_putByte (r : Reg) (a : Word) (v : Byte) (s : State) : getReg r (putByte a v s) = getReg r s := by
  cases r <;> rfl
@[simp] theorem readPair_putByte (p : Pair) (a : Word) (v : Byte) (s : State) : readPair p (putByte a v s) = readPair p s := by
  cases p <;> rfl

end Sys2Proof.Machine
end

