-- ==== Sys2Proof/Laws/Memory.lean ====
section
/-! SUPPORT. The laws of the store: read after write, the canonical form, and equality of stores that read alike. -/

namespace Sys2Proof.Machine

@[simp] theorem Memory.read_nil (a : Nat) : Memory.read [] a = 0x00 := rfl

@[simp] theorem Memory.read_erase_same (m : Memory) (a : Nat) : (Memory.erase m a).read a = 0x00 := by
  induction m with
  | nil => rfl
  | cons e rest ih =>
    obtain ⟨k, x⟩ := e
    by_cases hk : k = a
    · simpa [Memory.erase, hk] using ih
    · simpa [Memory.erase, Memory.read, hk] using ih

theorem Memory.read_erase_other (m : Memory) {a b : Nat} (h : b ≠ a) : (Memory.erase m a).read b = m.read b := by
  induction m with
  | nil => rfl
  | cons e rest ih =>
    obtain ⟨k, x⟩ := e
    by_cases hk : k = a
    · have hkb : k ≠ b := fun hb => h (by omega)
      simp [Memory.erase, Memory.read, hk, ih, show ¬ a = b from fun hab => h hab.symm]
    · simp [Memory.erase, Memory.read, hk, ih]

/-- Inserting puts the byte at its address when the address had no entry, and nowhere else. -/
theorem Memory.read_insert_erase (m : Memory) (a b : Nat) (v : Byte) :
    ((Memory.erase m a).insert a v).read b = if b = a then v else m.read b := by
  induction m with
  | nil =>
    by_cases h : b = a
    · simp [Memory.erase, Memory.insert, Memory.read, h]
    · simp [Memory.erase, Memory.insert, Memory.read, h, show ¬ a = b from fun e => h e.symm]
  | cons e rest ih =>
    obtain ⟨k, x⟩ := e
    by_cases hk : k = a
    · subst hk
      by_cases hb : b = k
      · simpa [Memory.erase, hb] using ih
      · simp [Memory.erase, Memory.read, hb, ih, show ¬ k = b from fun h => hb h.symm]
    · by_cases hlt : k < a
      · by_cases hb : b = a
        · subst hb
          simpa [Memory.erase, Memory.insert, Memory.read, hk, hlt] using ih
        · simp [Memory.erase, Memory.insert, Memory.read, hk, hlt, ih, hb]
      · by_cases hb : b = a
        · simp [Memory.erase, Memory.insert, Memory.read, hk, hlt, hb]
        · simp [Memory.erase, Memory.insert, Memory.read, hk, hlt, hb, show ¬ a = b from fun h => hb h.symm,
            Memory.read_erase_other rest hb]

/-- A write gives its address the byte written and leaves every other address alone (R53, R55), in every store. -/
theorem Memory.read_write (m : Memory) (a b : Nat) (v : Byte) :
    (m.write a v).read b = if b = a then v else m.read b := by
  unfold Memory.write
  split
  · next hv =>
    by_cases hb : b = a
    · subst hb; simp [hv, unlistedByte]
    · simp [hb, Memory.read_erase_other m hb]
  · exact Memory.read_insert_erase m a b v

@[simp] theorem Memory.read_write_same (m : Memory) (a : Nat) (v : Byte) : (m.write a v).read a = v := by
  simp [Memory.read_write]

theorem Memory.read_write_other (m : Memory) {a b : Nat} (h : b ≠ a) (v : Byte) : (m.write a v).read b = m.read b := by
  simp [Memory.read_write, h]

/-- The bus form of `read_write`: bus addresses are distinct when their numbers are. -/
theorem byteAt_putByte (a b : Word) (v : Byte) (s : State) :
    byteAt (putByte a v s) b = if b = a then v else byteAt s b := by
  simp [byteAt, putByte, Memory.read_write, BitVec.toNat_inj]

@[simp] theorem byteAt_putByte_same (a : Word) (v : Byte) (s : State) : byteAt (putByte a v s) a = v := by
  simp [byteAt_putByte]

theorem byteAt_putByte_other {a b : Word} (h : b ≠ a) (v : Byte) (s : State) : byteAt (putByte a v s) b = byteAt s b := by
  simp [byteAt_putByte, h]

/-- A write of memory changes nothing else (R53). -/
theorem putByte_frame (a : Word) (v : Byte) (s : State) : setMem s.mem (putByte a v s) = s := rfl

/-! ### The canonical form -/

theorem Memory.wfFrom_mono {size lo lo' : Nat} {m : Memory} (hlo : lo' ≤ lo) (h : Memory.wfFrom size lo m = true) :
    Memory.wfFrom size lo' m = true := by
  cases m with
  | nil => rfl
  | cons e rest =>
    simp only [Memory.wfFrom, Bool.and_eq_true, decide_eq_true_eq] at h ⊢
    exact ⟨⟨⟨by omega, h.1.1.2⟩, h.1.2⟩, h.2⟩

theorem Memory.wfFrom_erase {size lo : Nat} {m : Memory} (a : Nat) (h : Memory.wfFrom size lo m = true) :
    Memory.wfFrom size lo (m.erase a) = true := by
  induction m generalizing lo with
  | nil => rfl
  | cons e rest ih =>
    obtain ⟨k, x⟩ := e
    simp only [Memory.wfFrom, Bool.and_eq_true, decide_eq_true_eq] at h
    unfold Memory.erase
    split
    · exact Memory.wfFrom_mono (by omega) (ih h.2)
    · simp only [Memory.wfFrom, Bool.and_eq_true, decide_eq_true_eq]
      exact ⟨h.1, ih h.2⟩

theorem Memory.wfFrom_insert_erase {size lo a : Nat} {m : Memory} {v : Byte} (hlo : lo ≤ a) (ha : a < size)
    (hv : v ≠ unlistedByte) (h : Memory.wfFrom size lo m = true) :
    Memory.wfFrom size lo ((m.erase a).insert a v) = true := by
  induction m generalizing lo with
  | nil => simp [Memory.erase, Memory.insert, Memory.wfFrom, hlo, ha, hv]
  | cons e rest ih =>
    obtain ⟨k, x⟩ := e
    simp only [Memory.wfFrom, Bool.and_eq_true, decide_eq_true_eq] at h
    by_cases hk : k = a
    · simp only [Memory.erase, hk, if_true]
      exact ih hlo (Memory.wfFrom_mono (by omega) h.2)
    · by_cases hlt : k < a
      · simp only [Memory.erase, hk, if_false, Memory.insert, hlt, if_true, Memory.wfFrom, Bool.and_eq_true,
          decide_eq_true_eq]
        exact ⟨h.1, ih (by omega) h.2⟩
      · simp only [Memory.erase, hk, if_false, Memory.insert, hlt, Memory.wfFrom, Bool.and_eq_true, decide_eq_true_eq]
        exact ⟨⟨⟨hlo, ha⟩, hv⟩, ⟨⟨by omega, h.1.1.2⟩, h.1.2⟩, Memory.wfFrom_erase a h.2⟩

/-- A write at a valid address keeps the canonical form. -/
theorem Memory.wf_write {c : Config} {m : Memory} {a : Nat} (ha : a < c.memSize) (v : Byte) (h : m.wf c = true) :
    (m.write a v).wf c = true := by
  unfold Memory.write Memory.wf at *
  split
  · exact Memory.wfFrom_erase a h
  · next hv => exact Memory.wfFrom_insert_erase (Nat.zero_le a) ha hv h

theorem wf_putByte {c : Config} {s : State} {a : Word} (ha : isOutOfBounds c a = false) (v : Byte)
    (h : s.mem.wf c = true) : (putByte a v s).mem.wf c = true :=
  Memory.wf_write (by simpa [isOutOfBounds] using ha) v h

@[simp] theorem Memory.wf_nil (c : Config) : Memory.wf c [] = true := rfl

/-- Below the first entry, and outside the store, a canonical store reads as the unlisted byte. -/
theorem Memory.read_below {size lo a : Nat} {m : Memory} (h : Memory.wfFrom size lo m = true) (ha : a < lo) :
    m.read a = unlistedByte := by
  induction m generalizing lo with
  | nil => rfl
  | cons e rest ih =>
    obtain ⟨k, x⟩ := e
    simp only [Memory.wfFrom, Bool.and_eq_true, decide_eq_true_eq] at h
    simp only [Memory.read, show ¬ k = a by omega, if_false]
    exact ih h.2 (by omega)

end Sys2Proof.Machine
end

