-- ==== Sys2Proof/Laws/Ops.lean ====
section
/-! SUPPORT. For each shared operation, what it answers in every case; cited instead of unfolding the operation. -/

namespace Sys2Proof.Machine

@[simp] theorem coreConfig_memSize : coreConfig.memSize = 65535 := rfl
@[simp] theorem coreConfig_prefixByte : coreConfig.prefixByte = 0xCB := rfl

@[simp] theorem Result.andThen_ok {α β : Type} (x : α) (s : State) (k : α → State → Result β) :
    (Result.ok x s).andThen k = k x s := rfl
@[simp] theorem Result.andThen_raised {α β : Type} (f : Fault) (s : State) (k : α → State → Result β) :
    (Result.raised f s : Result α).andThen k = .raised f s := rfl
@[simp] theorem commit_ok (w : Word) (s : State) : commit (.ok w s) = .next (setPc w s) := rfl
@[simp] theorem commit_raised (f : Fault) (s : State) : commit (.raised f s) = .next (takeFatal f s) := rfl

/-- An instruction always ends in a next state: the commit of its handler's answer. -/
theorem commit_next (r : Result Word) : ∃ t, commit r = .next t := by cases r <;> exact ⟨_, rfl⟩

/-- The one address that does not exist (R50). -/
theorem isOutOfBounds_core (a : Word) : isOutOfBounds coreConfig a = decide (a = 0xFFFF) := by
  have := a.isLt
  simp only [isOutOfBounds, coreConfig_memSize, ← BitVec.toNat_inj]
  congr 1
  simp; omega

/-- A store of the full size has every address (R243). -/
theorem isOutOfBounds_full {c : Config} (h : c.memSize = 0x10000) (a : Word) : isOutOfBounds c a = false := by
  have := a.isLt
  simp [isOutOfBounds, h]; omega

theorem sub_one_sub_one (w : Word) : w - 1 - 1 = w - 2 := by bv_omega
theorem add_one_add_one (w : Word) : w + 1 + 1 = w + 2 := by bv_omega
theorem sub_two_ne_sub_one (w : Word) : w - 2 ≠ w - 1 := by bv_omega
theorem add_two_ne_add_one (w : Word) : w + 2 ≠ w + 1 := by bv_omega

/-- The state after the two writes and the two decrements of a push (R150). -/
def pushed (w : Word) (s : State) : State :=
  { s with
    sp := s.sp - 2
    mem := (s.mem.write (s.sp - 1).toNat (hi8 w)).write (s.sp - 2).toNat (lo8 w) }

/-- What `push16` answers (R150, R245): complete, or stopped at its first or its second write. -/
theorem push16_eq (c : Config) (w : Word) (s : State) :
    push16 c w s =
      if isOutOfBounds c (s.sp - 1) then .raised (.busFault (s.sp - 1) .write) (setSp (s.sp - 1) s)
      else if isOutOfBounds c (s.sp - 2) then
        .raised (.busFault (s.sp - 2) .write) (setSp (s.sp - 2) (putByte (s.sp - 1) (hi8 w) (setSp (s.sp - 1) s)))
      else .ok () (pushed w s) := by
  unfold push16 memWrite
  by_cases h1 : isOutOfBounds c (s.sp - 1) = true
  · simp only [setSp_sp, h1, if_true, Result.andThen_raised]
  · by_cases h2 : isOutOfBounds c (s.sp - 2) = true
    · simp only [setSp_sp, putByte_sp, sub_one_sub_one, h1, h2, if_true, Bool.false_eq_true, if_false, Result.andThen_ok]
    · simp only [setSp_sp, putByte_sp, sub_one_sub_one, h1, h2, Bool.false_eq_true, if_false, Result.andThen_ok]
      rfl

/-- What `pop16` answers (R151, R245). -/
theorem pop16_eq (c : Config) (s : State) :
    pop16 c s =
      if isOutOfBounds c s.sp then .raised (.busFault s.sp .read) s
      else if isOutOfBounds c (s.sp + 1) then .raised (.busFault (s.sp + 1) .read) (setSp (s.sp + 1) s)
      else .ok (concat (byteAt s (s.sp + 1)) (byteAt s s.sp)) (setSp (s.sp + 2) s) := by
  unfold pop16 memRead
  by_cases h1 : isOutOfBounds c s.sp = true
  · simp only [h1, if_true, Result.andThen_raised]
  · by_cases h2 : isOutOfBounds c (s.sp + 1) = true
    · simp only [h1, h2, setSp_sp, if_true, Bool.false_eq_true, if_false, Result.andThen_ok, Result.andThen_raised]
    · simp only [h1, h2, setSp_sp, byteAt_setSp, add_one_add_one, Bool.false_eq_true, if_false, Result.andThen_ok,
        setSp_setSp]

/-- What `imm16` answers (R201). -/
theorem imm16_eq (c : Config) (s : State) :
    imm16 c s =
      if isOutOfBounds c (s.pc + 1) then .raised (.busFault (s.pc + 1) .read) s
      else if isOutOfBounds c (s.pc + 2) then .raised (.busFault (s.pc + 2) .read) s
      else .ok (concat (byteAt s (s.pc + 2)) (byteAt s (s.pc + 1))) s := by
  unfold imm16 memRead
  by_cases h1 : isOutOfBounds c (s.pc + 1) = true
  · simp only [h1, if_true, Result.andThen_raised]
  · by_cases h2 : isOutOfBounds c (s.pc + 2) = true <;>
      simp only [h1, h2, if_true, Bool.false_eq_true, if_false, Result.andThen_ok, Result.andThen_raised]

@[simp] theorem pushed_sp (w : Word) (s : State) : (pushed w s).sp = s.sp - 2 := rfl
@[simp] theorem pushed_pc (w : Word) (s : State) : (pushed w s).pc = s.pc := rfl
@[simp] theorem pushed_f (w : Word) (s : State) : (pushed w s).f = s.f := rfl
@[simp] theorem pushed_status (w : Word) (s : State) : (pushed w s).status = s.status := rfl
@[simp] theorem getReg_pushed (r : Reg) (w : Word) (s : State) : getReg r (pushed w s) = getReg r s := by
  cases r <;> rfl
@[simp] theorem readPair_pushed (p : Pair) (w : Word) (s : State) : readPair p (pushed w s) = readPair p s := by
  cases p <;> rfl

/-- A push changes SP and memory only (R152). -/
theorem pushed_frame (w : Word) (s : State) : { pushed w s with sp := s.sp, mem := s.mem } = s := rfl

/-- The bytes a complete push leaves (R150): the high byte above the low byte, everything else as it was. -/
theorem byteAt_pushed (w : Word) (s : State) (a : Word) :
    byteAt (pushed w s) a = if a = s.sp - 2 then lo8 w else if a = s.sp - 1 then hi8 w else byteAt s a := by
  simp only [byteAt, pushed, Memory.read_write, BitVec.toNat_inj]

/-- The two writes of a push keep the canonical form. -/
theorem wf_pushed {c : Config} {s : State} (w : Word) (h1 : isOutOfBounds c (s.sp - 1) = false)
    (h2 : isOutOfBounds c (s.sp - 2) = false) (h : s.mem.wf c = true) : (pushed w s).mem.wf c = true :=
  Memory.wf_write (by simpa only [isOutOfBounds, decide_eq_false_iff_not, ge_iff_le, Nat.not_le] using h2) _
    (Memory.wf_write (by simpa only [isOutOfBounds, decide_eq_false_iff_not, ge_iff_le, Nat.not_le] using h1) _ h)

/-- An access that exists on this hardware. -/
theorem inBounds_core {a : Word} (h : a ≠ 0xFFFF) : isOutOfBounds coreConfig a = false := by
  rw [isOutOfBounds_core]; exact decide_eq_false h

/-- The one that does not. -/
theorem outOfBounds_top : isOutOfBounds coreConfig 0xFFFF = true := rfl

@[simp] theorem concat_hi8_lo8 (w : Word) : concat (hi8 w) (lo8 w) = w := by
  apply BitVec.eq_of_getLsbD_eq
  intro i hi
  simp only [concat, hi8, lo8, BitVec.getLsbD_append, BitVec.getLsbD_extractLsb']
  by_cases h : i < 8
  · simp [h]
  · simp [h, show i - 8 < 8 by omega, show 8 + (i - 8) = i by omega]

@[simp] theorem hi8_concat (h l : Byte) : hi8 (concat h l) = h := by
  apply BitVec.eq_of_getLsbD_eq
  intro i hi
  simp only [concat, hi8, BitVec.getLsbD_extractLsb', BitVec.getLsbD_append]
  simp [hi, show ¬ 8 + i < 8 by omega]

@[simp] theorem lo8_concat (h l : Byte) : lo8 (concat h l) = l := by
  apply BitVec.eq_of_getLsbD_eq
  intro i hi
  simp only [concat, lo8, BitVec.getLsbD_extractLsb', BitVec.getLsbD_append]
  simp [hi]

/-- What the handler of a byte load answers with a register target (R131, R132, R135). -/
theorem load_reg_eq (c : Config) (r : Reg) (src : LoadSource) (s : State) :
    load c (.reg r) src s =
      (readSource c src s).andThen fun v s1 => .ok (s1.pc + loadLength src) (setReg r v s1) := by
  simp [load, writeTarget]

end Sys2Proof.Machine
end

