-- ==== Sys2Proof/Laws/PerInstr.lean ====
section
/-! SUPPORT. The statements made instruction by instruction. -/

/-- Every row is well formed, and its encoding has the length R80 gives it. -/
def Sys2Proof.Laws.EncodedLength.Statement (i : Sys2Proof.Instr) : Prop :=
  i.wellFormed = true ∧ ∀ a16 : Sys2Proof.Word, (Sys2Proof.assemble i a16).length = Sys2Proof.lengthOf i

namespace Sys2Proof.Laws.EncodedLength

theorem nop : Statement .nop := ⟨rfl, fun _ => rfl⟩
theorem ldBB : Statement .ldBB := ⟨rfl, fun _ => rfl⟩
theorem ldBC : Statement .ldBC := ⟨rfl, fun _ => rfl⟩
theorem ldBD : Statement .ldBD := ⟨rfl, fun _ => rfl⟩
theorem ldBE : Statement .ldBE := ⟨rfl, fun _ => rfl⟩
theorem ldBH : Statement .ldBH := ⟨rfl, fun _ => rfl⟩
theorem ldBL : Statement .ldBL := ⟨rfl, fun _ => rfl⟩
theorem ldBMem : Statement .ldBMem := ⟨rfl, fun _ => rfl⟩
theorem ldBA : Statement .ldBA := ⟨rfl, fun _ => rfl⟩
theorem ldCB : Statement .ldCB := ⟨rfl, fun _ => rfl⟩
theorem ldCC : Statement .ldCC := ⟨rfl, fun _ => rfl⟩
theorem ldCD : Statement .ldCD := ⟨rfl, fun _ => rfl⟩
theorem ldCE : Statement .ldCE := ⟨rfl, fun _ => rfl⟩
theorem ldCH : Statement .ldCH := ⟨rfl, fun _ => rfl⟩
theorem ldCL : Statement .ldCL := ⟨rfl, fun _ => rfl⟩
theorem ldCMem : Statement .ldCMem := ⟨rfl, fun _ => rfl⟩
theorem ldCA : Statement .ldCA := ⟨rfl, fun _ => rfl⟩
theorem ldDB : Statement .ldDB := ⟨rfl, fun _ => rfl⟩
theorem ldDC : Statement .ldDC := ⟨rfl, fun _ => rfl⟩
theorem ldDD : Statement .ldDD := ⟨rfl, fun _ => rfl⟩
theorem ldDE : Statement .ldDE := ⟨rfl, fun _ => rfl⟩
theorem ldDH : Statement .ldDH := ⟨rfl, fun _ => rfl⟩
theorem ldDL : Statement .ldDL := ⟨rfl, fun _ => rfl⟩
theorem ldDMem : Statement .ldDMem := ⟨rfl, fun _ => rfl⟩
theorem ldDA : Statement .ldDA := ⟨rfl, fun _ => rfl⟩
theorem ldEB : Statement .ldEB := ⟨rfl, fun _ => rfl⟩
theorem ldEC : Statement .ldEC := ⟨rfl, fun _ => rfl⟩
theorem ldED : Statement .ldED := ⟨rfl, fun _ => rfl⟩
theorem ldEE : Statement .ldEE := ⟨rfl, fun _ => rfl⟩
theorem ldEH : Statement .ldEH := ⟨rfl, fun _ => rfl⟩
theorem ldEL : Statement .ldEL := ⟨rfl, fun _ => rfl⟩
theorem ldEMem : Statement .ldEMem := ⟨rfl, fun _ => rfl⟩
theorem ldEA : Statement .ldEA := ⟨rfl, fun _ => rfl⟩
theorem ldHB : Statement .ldHB := ⟨rfl, fun _ => rfl⟩
theorem ldHC : Statement .ldHC := ⟨rfl, fun _ => rfl⟩
theorem ldHD : Statement .ldHD := ⟨rfl, fun _ => rfl⟩
theorem ldHE : Statement .ldHE := ⟨rfl, fun _ => rfl⟩
theorem ldHH : Statement .ldHH := ⟨rfl, fun _ => rfl⟩
theorem ldHL : Statement .ldHL := ⟨rfl, fun _ => rfl⟩
theorem ldHMem : Statement .ldHMem := ⟨rfl, fun _ => rfl⟩
theorem ldHA : Statement .ldHA := ⟨rfl, fun _ => rfl⟩
theorem ldLB : Statement .ldLB := ⟨rfl, fun _ => rfl⟩
theorem ldLC : Statement .ldLC := ⟨rfl, fun _ => rfl⟩
theorem ldLD : Statement .ldLD := ⟨rfl, fun _ => rfl⟩
theorem ldLE : Statement .ldLE := ⟨rfl, fun _ => rfl⟩
theorem ldLH : Statement .ldLH := ⟨rfl, fun _ => rfl⟩
theorem ldLL : Statement .ldLL := ⟨rfl, fun _ => rfl⟩
theorem ldLMem : Statement .ldLMem := ⟨rfl, fun _ => rfl⟩
theorem ldLA : Statement .ldLA := ⟨rfl, fun _ => rfl⟩
theorem ldMemB : Statement .ldMemB := ⟨rfl, fun _ => rfl⟩
theorem ldMemC : Statement .ldMemC := ⟨rfl, fun _ => rfl⟩
theorem ldMemD : Statement .ldMemD := ⟨rfl, fun _ => rfl⟩
theorem ldMemE : Statement .ldMemE := ⟨rfl, fun _ => rfl⟩
theorem ldMemH : Statement .ldMemH := ⟨rfl, fun _ => rfl⟩
theorem ldMemL : Statement .ldMemL := ⟨rfl, fun _ => rfl⟩
theorem halt : Statement .halt := ⟨rfl, fun _ => rfl⟩
theorem ldMemA : Statement .ldMemA := ⟨rfl, fun _ => rfl⟩
theorem ldAB : Statement .ldAB := ⟨rfl, fun _ => rfl⟩
theorem ldAC : Statement .ldAC := ⟨rfl, fun _ => rfl⟩
theorem ldAD : Statement .ldAD := ⟨rfl, fun _ => rfl⟩
theorem ldAE : Statement .ldAE := ⟨rfl, fun _ => rfl⟩
theorem ldAH : Statement .ldAH := ⟨rfl, fun _ => rfl⟩
theorem ldAL : Statement .ldAL := ⟨rfl, fun _ => rfl⟩
theorem ldAMem : Statement .ldAMem := ⟨rfl, fun _ => rfl⟩
theorem ldAA : Statement .ldAA := ⟨rfl, fun _ => rfl⟩
theorem addAB : Statement .addAB := ⟨rfl, fun _ => rfl⟩
theorem addAC : Statement .addAC := ⟨rfl, fun _ => rfl⟩
theorem addAD : Statement .addAD := ⟨rfl, fun _ => rfl⟩
theorem addAE : Statement .addAE := ⟨rfl, fun _ => rfl⟩
theorem addAH : Statement .addAH := ⟨rfl, fun _ => rfl⟩
theorem addAL : Statement .addAL := ⟨rfl, fun _ => rfl⟩
theorem addAA : Statement .addAA := ⟨rfl, fun _ => rfl⟩
theorem retNZ : Statement .retNZ := ⟨rfl, fun _ => rfl⟩
theorem popBC : Statement .popBC := ⟨rfl, fun _ => rfl⟩
theorem jpNZ : Statement .jpNZ := ⟨rfl, fun _ => rfl⟩
theorem jp : Statement .jp := ⟨rfl, fun _ => rfl⟩
theorem callNZ : Statement .callNZ := ⟨rfl, fun _ => rfl⟩
theorem pushBC : Statement .pushBC := ⟨rfl, fun _ => rfl⟩
theorem retZ : Statement .retZ := ⟨rfl, fun _ => rfl⟩
theorem ret : Statement .ret := ⟨rfl, fun _ => rfl⟩
theorem jpZ : Statement .jpZ := ⟨rfl, fun _ => rfl⟩
theorem prefixOp (second : Byte) : Statement (.prefixOp second) := ⟨rfl, fun _ => rfl⟩
theorem callZ : Statement .callZ := ⟨rfl, fun _ => rfl⟩
theorem call : Statement .call := ⟨rfl, fun _ => rfl⟩
theorem retNC : Statement .retNC := ⟨rfl, fun _ => rfl⟩
theorem popDE : Statement .popDE := ⟨rfl, fun _ => rfl⟩
theorem jpNC : Statement .jpNC := ⟨rfl, fun _ => rfl⟩
theorem callNC : Statement .callNC := ⟨rfl, fun _ => rfl⟩
theorem pushDE : Statement .pushDE := ⟨rfl, fun _ => rfl⟩
theorem retC : Statement .retC := ⟨rfl, fun _ => rfl⟩
theorem jpC : Statement .jpC := ⟨rfl, fun _ => rfl⟩
theorem callC : Statement .callC := ⟨rfl, fun _ => rfl⟩
theorem popHL : Statement .popHL := ⟨rfl, fun _ => rfl⟩
theorem pushHL : Statement .pushHL := ⟨rfl, fun _ => rfl⟩
theorem popAF : Statement .popAF := ⟨rfl, fun _ => rfl⟩
theorem pushAF : Statement .pushAF := ⟨rfl, fun _ => rfl⟩

end Sys2Proof.Laws.EncodedLength
end

