-- ==== Sys2Proof/Laws/Step.lean ====
section
/-! SUPPORT. What a step can do, said once: the 96 arms reduce to the handlers of R115, and a step has these cases. -/

namespace Sys2Proof.Machine

/-- A load that some byte decodes to has a handler, whatever the vocabulary admits beside it. -/
theorem hasLoadHandler_of_wellFormed {t : LoadTarget} {src : LoadSource} (c : Config)
    (h : (InstrValue.load t src).wellFormed = true) : hasLoadHandler c t src = true := by
  cases t <;> cases src <;> first | rfl | cases h

/-- Dispatch of every byte load but `Load(HLI, HLI)` is its handler (R115, R130, R135, R136). -/
theorem execute_load {c : Config} {t : LoadTarget} {src : LoadSource} (h : hasLoadHandler c t src = true) (s : State) :
    execute c (.load t src) s = load c t src s := if_pos h

/-- Dispatch of `Load(HLI, HLI)` where the vocabulary admits it (R136). -/
theorem execute_hliPair_admitted {c : Config} (h : c.admitsHliPair = true) (s : State) :
    execute c (.load .hli .hli) s = load c .hli .hli s := execute_load (t := .hli) (src := .hli) h s

/-- Dispatch of `Load(HLI, HLI)` where it does not (93_implementation_defined.md U8). -/
theorem execute_hliPair_unimplemented {c : Config} (h : c.admitsHliPair = false) (s : State) :
    execute c (.load .hli .hli) s = .raised (.unimplementedInstruction (.load .hli .hli)) s := by
  simp [execute, hasLoadHandler, h, noHandler]

/-- Every row that stands for an instruction value runs the handler of that value (R115), whatever the state. -/
theorem exec_of_value {i : Instr} {v : InstrValue} (h : valueOf i = some v) (s : State) :
    exec i s = commit (execute coreConfig v s) := by
  cases i <;> cases h <;> rfl

@[simp] theorem exec_prefixOp (b : Byte) (s : State) :
    exec (.prefixOp b) s = .next (takeFatal (.unrecognizedOpcode b true) s) := rfl

/-- A row without an instruction value is the prefix row. -/
theorem eq_prefixOp_of_valueOf_none {i : Instr} (h : valueOf i = none) : ∃ b, i = .prefixOp b := by
  cases i <;> first | exact ⟨_, rfl⟩ | cases h

/-- Every instruction ends in a next state: its commit, or the fatal condition it takes. -/
theorem exec_next (i : Instr) (s : State) : ∃ t, exec i s = .next t := by
  cases hv : valueOf i with
  | some v => rw [exec_of_value hv]; exact commit_next _
  | none => obtain ⟨b, rfl⟩ := eq_prefixOp_of_valueOf_none hv; exact ⟨_, rfl⟩

/-- What the fetch unit answers (R111, R113): it never changes the state. -/
theorem fetch_eq (c : Config) (s : State) :
    fetch c s =
      if isOutOfBounds c s.pc then .raised (.busFault s.pc .read) s
      else if byteAt s s.pc = c.prefixByte then
        if isOutOfBounds c (s.pc + 1) then .raised (.busFault (s.pc + 1) .read) s
        else .ok ⟨byteAt s (s.pc + 1), true⟩ s
      else .ok ⟨byteAt s s.pc, false⟩ s := by
  unfold fetch
  simp only [memRead]
  split
  · rfl
  · simp only [Result.andThen_ok]
    split
    · split <;> rfl
    · rfl

theorem step_faulted {s : State} {cause : Fault} (h : s.status = .faulted cause) : step s = .next s := by
  simp [step, h]

/-- A step of a running machine: the fetched instruction runs, or the fetch or the decode takes a fatal condition. -/
theorem step_running {s : State} (h : s.status = .running) :
    step s = match fetchInstr coreConfig s with
      | .ok i s1 => exec i s1
      | .raised cause s1 => .next (takeFatal cause s1) := by
  simp only [step, h] <;> rfl

/-- Fetch and decode change no state. -/
theorem fetchInstr_state {c : Config} {s : State} :
    (∃ i, fetchInstr c s = .ok i s) ∨ (∃ cause, fetchInstr c s = .raised cause s) := by
  unfold fetchInstr
  rw [fetch_eq]
  split
  · exact .inr ⟨_, rfl⟩
  · split
    · split
      · exact .inr ⟨_, rfl⟩
      · exact .inl ⟨_, rfl⟩
    · simp only [Result.andThen_ok]
      split
      · exact .inl ⟨_, rfl⟩
      · exact .inr ⟨_, rfl⟩

/-- What a step can do, whole: nothing when Faulted; a fatal condition of the fetch or the decode; or one
instruction. -/
theorem step_cases (s : State) :
    (∃ cause, s.status = .faulted cause ∧ step s = .next s) ∨
    (∃ cause, s.status = .running ∧ fetchInstr coreConfig s = .raised cause s ∧ step s = .next (takeFatal cause s)) ∨
    (∃ i, s.status = .running ∧ fetchInstr coreConfig s = .ok i s ∧ step s = exec i s) := by
  cases hs : s.status with
  | faulted cause => exact .inl ⟨cause, rfl, step_faulted hs⟩
  | running =>
    rcases fetchInstr_state (c := coreConfig) (s := s) with ⟨i, hi⟩ | ⟨cause, hc⟩
    · exact .inr (.inr ⟨i, rfl, hi, by rw [step_running hs, hi]⟩)
    · exact .inr (.inl ⟨cause, rfl, hc, by rw [step_running hs, hc]⟩)

/-! ### The host's load -/

@[simp] theorem hostWriteByte_below {c : Config} {a : Nat} (h : a < c.memSize) (v : Byte) (s : State) :
    hostWriteByte c a v s = setMem (s.mem.write a v) s := if_pos h

@[simp] theorem hostWriteByte_past {c : Config} {a : Nat} (h : ¬ a < c.memSize) (v : Byte) (s : State) :
    hostWriteByte c a v s = s := if_neg h

/-- A load changes memory only, and keeps the canonical form (R282; log 16). -/
theorem hostLoad_changes_memory_only (c : Config) (bytes : List Byte) (a : Nat) (s : State) :
    ∃ m, hostLoad c a bytes s = setMem m s ∧ (s.mem.wf c = true → m.wf c = true) := by
  induction bytes generalizing a s with
  | nil => exact ⟨s.mem, rfl, id⟩
  | cons v rest ih =>
    by_cases h : a < c.memSize
    · obtain ⟨m, hm, hw⟩ := ih (a + 1) (setMem (s.mem.write a v) s)
      exact ⟨m, by rw [hostLoad, hostWriteByte_below h, hm]; rfl, fun hs => hw (Memory.wf_write h v hs)⟩
    · obtain ⟨m, hm, hw⟩ := ih (a + 1) s
      exact ⟨m, by rw [hostLoad, hostWriteByte_past h, hm], hw⟩

end Sys2Proof.Machine
end

