-- ==== Sys2Proof/Tests/Slice0.lean ====
section
/-! SUPPORT. Tests and witnesses. Expected results come from the spec: encodings from 30_encoding.md (R82 to R92), results
from 95_test_vectors.md (the vector's id stands in the test's comment). A `witness_` theorem shows a concrete state
and operands that meet the hypotheses of the statement it names, clause by clause, at the edge of its range. -/

namespace Sys2Proof.Tests

open Sys2Proof Sys2Proof.Machine Sys2Proof.Claim

/-- The next state of an answer. -/
def nextOf : Answer → Option State
  | .next t => some t
  | .fault _ => none
  | .refused _ => none

/-- From a test on the next state to the answer itself: how a witness shows `exec i s = .next t` or `step s = .next t`. -/
theorem answers {r : Answer} {p : State → Bool} (h : (nextOf r).any p = true) : ∃ t, r = .next t ∧ p t = true := by
  cases r with
  | next t => exact ⟨t, rfl, by simpa [nextOf] using h⟩
  | fault _ => cases h
  | refused _ => cases h

/-- A launch state: PC, SP, F as a byte, registers, memory. -/
def start (pc sp : Word) (f : Byte) (setUp : List (Reg × Byte)) (image : List (Word × List Byte)) : State :=
  launch coreConfig image setUp f pc sp

/-- Bytes put at consecutive addresses. -/
def withBytes (addr : Word) (bytes : List Byte) (s : State) : State := hostLoad coreConfig addr.toNat bytes s

/-- One step from `s` ends in `t`. -/
def stepsTo (s t : State) : Bool := decide (nextOf (step s) = some t)

/-- The status of a machine that met an address that does not exist. -/
def busFault (access : Access) : Status := .faulted (.busFault 0xFFFF access)

/-! ### Well-formedness refuses ill-formed terms -/

theorem test_coreConfig_is_admissible : coreConfig.admissible = true := by decide
theorem test_full_size_is_admissible : Config.admissible ⟨0x10000, 0xCB, false⟩ = true := by decide
theorem test_other_memSize_is_refused : Config.admissible ⟨0x8000, 0xCB, false⟩ = false := by decide
theorem test_prefix_on_an_opcode_is_refused : Config.admissible ⟨0xFFFF, 0x40, false⟩ = false := by decide
theorem test_immediate_load_is_refused : (InstrValue.load (.reg .b) .d8).wellFormed = false := by decide
theorem test_load_hli_hli_is_refused : (InstrValue.load .hli .hli).wellFormed = false := by decide
theorem test_multiByteLoad_is_refused : InstrValue.multiByteLoad.wellFormed = false := by decide
theorem test_store_is_wellFormed : (InstrValue.load .hli (.reg .a)).wellFormed = true := by decide

/-! ### Every row decodes from the word the encoding tables give it (R83 to R87) -/

theorem test_decode_loads_into_b :
    [0b01000000, 0b01000001, 0b01000010, 0b01000011, 0b01000100, 0b01000101, 0b01000110, 0b01000111].map
      (decodeTableWord 8) =
    [some .ldBB, some .ldBC, some .ldBD, some .ldBE, some .ldBH, some .ldBL, some .ldBMem, some .ldBA] := by decide
theorem test_decode_loads_into_c :
    [0b01001000, 0b01001001, 0b01001010, 0b01001011, 0b01001100, 0b01001101, 0b01001110, 0b01001111].map
      (decodeTableWord 8) =
    [some .ldCB, some .ldCC, some .ldCD, some .ldCE, some .ldCH, some .ldCL, some .ldCMem, some .ldCA] := by decide
theorem test_decode_loads_into_d :
    [0b01010000, 0b01010001, 0b01010010, 0b01010011, 0b01010100, 0b01010101, 0b01010110, 0b01010111].map
      (decodeTableWord 8) =
    [some .ldDB, some .ldDC, some .ldDD, some .ldDE, some .ldDH, some .ldDL, some .ldDMem, some .ldDA] := by decide
theorem test_decode_loads_into_e :
    [0b01011000, 0b01011001, 0b01011010, 0b01011011, 0b01011100, 0b01011101, 0b01011110, 0b01011111].map
      (decodeTableWord 8) =
    [some .ldEB, some .ldEC, some .ldED, some .ldEE, some .ldEH, some .ldEL, some .ldEMem, some .ldEA] := by decide
theorem test_decode_loads_into_h :
    [0b01100000, 0b01100001, 0b01100010, 0b01100011, 0b01100100, 0b01100101, 0b01100110, 0b01100111].map
      (decodeTableWord 8) =
    [some .ldHB, some .ldHC, some .ldHD, some .ldHE, some .ldHH, some .ldHL, some .ldHMem, some .ldHA] := by decide
theorem test_decode_loads_into_l :
    [0b01101000, 0b01101001, 0b01101010, 0b01101011, 0b01101100, 0b01101101, 0b01101110, 0b01101111].map
      (decodeTableWord 8) =
    [some .ldLB, some .ldLC, some .ldLD, some .ldLE, some .ldLH, some .ldLL, some .ldLMem, some .ldLA] := by decide
theorem test_decode_stores_and_halt :
    [0b01110000, 0b01110001, 0b01110010, 0b01110011, 0b01110100, 0b01110101, 0b01110110, 0b01110111].map
      (decodeTableWord 8) =
    [some .ldMemB, some .ldMemC, some .ldMemD, some .ldMemE, some .ldMemH, some .ldMemL, some .halt,
      some .ldMemA] := by decide
theorem test_decode_loads_into_a :
    [0b01111000, 0b01111001, 0b01111010, 0b01111011, 0b01111100, 0b01111101, 0b01111110, 0b01111111].map
      (decodeTableWord 8) =
    [some .ldAB, some .ldAC, some .ldAD, some .ldAE, some .ldAH, some .ldAL, some .ldAMem, some .ldAA] := by decide
theorem test_decode_adds_and_nop :
    [0b10000000, 0b10000001, 0b10000010, 0b10000011, 0b10000100, 0b10000101, 0b10000111, 0b00000000].map
      (decodeTableWord 8) =
    [some .addAB, some .addAC, some .addAD, some .addAE, some .addAH, some .addAL, some .addAA, some .nop] := by decide
theorem test_decode_stack :
    [0b11000001, 0b11010001, 0b11100001, 0b11110001, 0b11000101, 0b11010101, 0b11100101, 0b11110101].map
      (decodeTableWord 8) =
    [some .popBC, some .popDE, some .popHL, some .popAF, some .pushBC, some .pushDE, some .pushHL,
      some .pushAF] := by decide
/-- The operand bytes are 0x34 and 0x12, above the opcode byte. -/
theorem test_decode_jumps :
    [0x123400 + 0b11000011, 0x123400 + 0b11000010, 0x123400 + 0b11001010, 0x123400 + 0b11010010,
      0x123400 + 0b11011010].map (decodeTableWord 24) =
    [some .jp, some .jpNZ, some .jpZ, some .jpNC, some .jpC] := by decide
theorem test_decode_calls :
    [0x123400 + 0b11001101, 0x123400 + 0b11000100, 0x123400 + 0b11001100, 0x123400 + 0b11010100,
      0x123400 + 0b11011100].map (decodeTableWord 24) =
    [some .call, some .callNZ, some .callZ, some .callNC, some .callC] := by decide
theorem test_decode_returns :
    [0b11001001, 0b11000000, 0b11001000, 0b11010000, 0b11011000].map (decodeTableWord 8) =
    [some .ret, some .retNZ, some .retZ, some .retNC, some .retC] := by decide
/-- With 8 bits given the second byte is 0 (R113). -/
theorem test_decode_prefix :
    decodeTableWord 16 0b0111110011001011 = some (.prefixOp 0x7C) ∧
    decodeTableWord 8 0b11001011 = some (.prefixOp 0x00) := by decide
/-- Reserved encodings next to the decoded ones (R90, R94). -/
theorem test_decode_rejects_neighbours :
    [0x86, 0x88, 0x3E, 0x36, 0x06, 0xE9, 0xC6, 0x18, 0x76 + 0x100].map (decodeTableWord 8) =
    [none, none, none, none, none, none, none, none, some .halt] ∧
    decodeBytes [0x86] = .rejected (.unrecognized 0x86) ∧ decodeBytes [0xCB] = .rejected .truncated ∧
    decodeBytes [] = .rejected .truncated := by decide
theorem test_encode_samples :
    [Instr.ldEMem, .ldMemA, .addAL, .pushHL, .popAF, .retNC, .jpC, .callNZ, .ret, .prefixOp 0x40].map encode =
    [[0b01011110], [0b01110111], [0b10000101], [0b11100101], [0b11110001], [0b11010000], [0b11011010], [0b11000100],
      [0b11001001], [0b11001011, 0b01000000]] := by decide
/-- `JP 0xAAFF` is C3 FF AA (R88). -/
theorem test_assemble_jp : assemble .jp 0xAAFF = [0xC3, 0xFF, 0xAA] := by decide

/-! ### One step of each family -/

/-- LD1. -/
theorem test_ldBC : let s := start 0x0200 0 0 [(.c, 0x5A)] [(0x0200, [0x41])]
    stepsTo s { s with b := 0x5A, pc := 0x0201 } = true := by decide
/-- LD2, LD3: the flags stay. -/
theorem test_register_loads_keep_flags :
    (let s := start 0 0 0xF0 [(.b, 0x77)] [(0, [0x40])]; stepsTo s { s with pc := 1 }) = true ∧
    (let s := start 0 0 0xA0 [(.l, 0xC3)] [(0, [0x5D])]; stepsTo s { s with e := 0xC3, pc := 1 }) = true := by decide
/-- LD4, LD5: the old HL is the address. -/
theorem test_ldHMem_ldLMem :
    (let s := start 0 0 0 [(.h, 0x12), (.l, 0x34)] [(0, [0x66]), (0x1234, [0x99])]
     stepsTo s { s with h := 0x99, pc := 1 }) = true ∧
    (let s := start 0 0 0 [(.h, 0x12), (.l, 0x34)] [(0, [0x6E]), (0x1234, [0x99])]
     stepsTo s { s with l := 0x99, pc := 1 }) = true := by decide
/-- LD7, LD8: the highest address, and the one that does not exist. -/
theorem test_ldAMem_at_the_top :
    (let s := start 0 0 0 [(.h, 0xFF), (.l, 0xFE)] [(0, [0x7E]), (0xFFFE, [0xAB])]
     stepsTo s { s with a := 0xAB, pc := 1 }) = true ∧
    (let s := start 0 0 0 [(.h, 0xFF), (.l, 0xFF), (.a, 0x11)] [(0, [0x7E])]
     stepsTo s { s with status := busFault .read }) = true := by decide
/-- LD9 with the store written out; LD12. -/
theorem test_ldMemA :
    stepsTo (start 3 0 0 [(.l, 0x10), (.a, 0x74)] [(3, [0x77])])
      { State.reset with a := 0x74, l := 0x10, pc := 4, mem := [(0x0003, 0x77), (0x0010, 0x74)] } = true ∧
    (let s := start 0 0 0 [(.h, 0xFF), (.l, 0xFF), (.a, 0x11)] [(0, [0x77])]
     stepsTo s { s with status := busFault .write }) = true := by decide
/-- LD10, LD11: the stored register is half of the address. -/
theorem test_ldMemH_ldMemL :
    (let s := start 0 0 0 [(.h, 0x12), (.l, 0x34)] [(0, [0x74])]
     stepsTo s { withBytes 0x1234 [0x12] s with pc := 1 }) = true ∧
    (let s := start 0 0 0 [(.h, 0x12), (.l, 0x34)] [(0, [0x75])]
     stepsTo s { withBytes 0x1234 [0x34] s with pc := 1 }) = true := by decide
/-- LD13, first step: a zero stored leaves no entry. -/
theorem test_store_of_zero_is_unlisted :
    stepsTo (start 0 0 0 [(.l, 0x01)] [(0, [0x77, 0x76])])
      { State.reset with l := 0x01, pc := 1, mem := [(0x0000, 0x77)] } = true := by decide
/-- The exhaustive check of section 2.1: all registers distinct, the byte at HL an eighth value; one step of each of the
63 loads changes its target only. -/
theorem test_every_load_changes_its_target :
    ([(0, Reg.b), (1, .c), (2, .d), (3, .e), (4, .h), (5, .l), (7, .a)].all fun x =>
      let s (op : Nat) := start 0 0 0xA0 [(.b, 1), (.c, 2), (.d, 3), (.e, 4), (.h, 0x12), (.l, 5), (.a, 6)]
        [(0, [BitVec.ofNat 8 op]), (0x1205, [7])]
      let load := s (0x40 + 8 * x.1 + 6)
      let store := s (0x70 + x.1)
      stepsTo load { setReg x.2 7 load with pc := 1 } &&
      stepsTo store { withBytes 0x1205 [getReg x.2 store] store with pc := 1 } &&
      [(0, Reg.b), (1, .c), (2, .d), (3, .e), (4, .h), (5, .l), (7, .a)].all fun y =>
        let t := s (0x40 + 8 * x.1 + y.1)
        stepsTo t { setReg x.2 (getReg y.2 t) t with pc := 1 }) = true := by decide
/-- A1, A4, A6, A8, A10, A12, A13: A, B, the new A, the new F; the old F is 0xF0. -/
theorem test_addAB :
    ([(0x00, 0x00, 0x00, 0x80), (0xFF, 0x01, 0x00, 0xB0), (0xF0, 0x20, 0x10, 0x10), (0x0F, 0x01, 0x10, 0x20),
      (0x80, 0x80, 0x00, 0x90), (0xFF, 0xFF, 0xFE, 0x30), (0x7F, 0x01, 0x80, 0x20)].all
      fun (v : Byte × Byte × Byte × Byte) =>
        stepsTo (start 0 0 0xF0 [(.a, v.1), (.b, v.2.1)] [(0, [0x80])])
          (start 1 0 v.2.2.2 [(.a, v.2.2.1), (.b, v.2.1)] [(0, [0x80])])) = true := by decide
/-- A14, A15, A17, A18. -/
theorem test_addAA :
    ([(0x81, 0x02, 0x10), (0x80, 0x00, 0x90), (0x08, 0x10, 0x20), (0x88, 0x10, 0x30)].all
      fun (v : Byte × Byte × Byte) =>
        stepsTo (start 0 0 0x40 [(.a, v.1)] [(0, [0x87])]) (start 1 0 v.2.2 [(.a, v.2.1)] [(0, [0x87])])) = true := by
  decide
/-- "One step of each other add": 0x12 + 0x34. -/
theorem test_adds_of_the_other_registers :
    ([(0x81, Reg.c), (0x82, .d), (0x83, .e), (0x84, .h), (0x85, .l)].all fun (v : Byte × Reg) =>
      stepsTo (start 0 0 0xF0 [(.a, 0x12), (v.2, 0x34)] [(0, [v.1])])
        (start 1 0 0x00 [(.a, 0x46), (v.2, 0x34)] [(0, [v.1])])) = true := by decide
/-- S1, S2, S9. -/
theorem test_pushes :
    stepsTo (start 0 0x0100 0 [(.b, 0x12), (.c, 0x34)] [(0, [0xC5])])
      { State.reset with
        b := 0x12, c := 0x34, sp := 0x00FE, pc := 1, mem := [(0x0000, 0xC5), (0x00FE, 0x34), (0x00FF, 0x12)] } = true ∧
    (let s := start 0 0x0100 0xB0 [(.a, 0x7C)] [(0, [0xF5])]
     stepsTo s { withBytes 0x00FE [0xB0, 0x7C] s with sp := 0x00FE, pc := 1 }) = true ∧
    (let s := start 0 0xFFFF 0 [(.b, 0x12), (.c, 0x34)] [(0, [0xC5])]
     stepsTo s { withBytes 0xFFFD [0x34, 0x12] s with sp := 0xFFFD, pc := 1 }) = true := by decide
/-- E6 and S5, first steps. -/
theorem test_pushDE_pushHL :
    (let s := start 0x10 0x0002 0 [(.d, 0xAA), (.e, 0xFF)] [(0x10, [0xD5, 0xC1])]
     stepsTo s { withBytes 0x0000 [0xFF, 0xAA] s with sp := 0x0000, pc := 0x11 }) = true ∧
    (let s := start 0 0x0100 0 [(.h, 0xBE), (.l, 0xEF)] [(0, [0xE5])]
     stepsTo s { withBytes 0x00FE [0xEF, 0xBE] s with sp := 0x00FE, pc := 1 }) = true := by decide
/-- S7, S8: the state a push leaves that is stopped (R245). -/
theorem test_push_at_the_bottom :
    (let s := start 0 0x0000 0 [(.b, 0x12), (.c, 0x34)] [(0, [0xC5])]
     stepsTo s { s with sp := 0xFFFF, status := busFault .write }) = true ∧
    (let s := start 5 0x0001 0 [(.b, 0x12), (.c, 0x34)] [(5, [0xC5])]
     stepsTo s { withBytes 0x0000 [0x12] s with sp := 0xFFFF, status := busFault .write }) = true := by decide
/-- S3, S4, S10; POP DE and POP HL after R157 and R158. -/
theorem test_pops :
    (let s := start 0 0 0 [] [(0, [0xF1, 0xC1])]
     stepsTo s { s with a := 0xC1, f := ⟨true, true, true, true⟩, sp := 2, pc := 1 }) = true ∧
    (let s := start 0 0x0100 0 [] [(0, [0xF1]), (0x0100, [0x5F, 0x12])]
     stepsTo s { s with a := 0x12, f := ⟨false, true, false, true⟩, sp := 0x0102, pc := 1 }) = true ∧
    (let s := start 0 0xFFFD 0 [] [(0, [0xC1]), (0xFFFD, [0x34, 0x12])]
     stepsTo s { s with b := 0x12, c := 0x34, sp := 0xFFFF, pc := 1 }) = true ∧
    (let s := start 0 0x0100 0xF0 [] [(0, [0xD1]), (0x0100, [0x34, 0x12])]
     stepsTo s { s with d := 0x12, e := 0x34, sp := 0x0102, pc := 1 }) = true ∧
    (let s := start 0 0x0100 0xF0 [] [(0, [0xE1]), (0x0100, [0x34, 0x12])]
     stepsTo s { s with h := 0x12, l := 0x34, sp := 0x0102, pc := 1 }) = true := by decide
/-- S11, S12. -/
theorem test_pop_at_the_top :
    (let s := start 0 0xFFFE 0 [(.b, 0x55), (.c, 0x55)] [(0, [0xC1]), (0xFFFE, [0x34])]
     stepsTo s { s with sp := 0xFFFF, status := busFault .read }) = true ∧
    (let s := start 0 0xFFFF 0 [(.b, 0x55), (.c, 0x55)] [(0, [0xC1])]
     stepsTo s { s with status := busFault .read }) = true := by decide

/-- The five start flags of section 2.4. -/
def flagBytes : List Byte := [0x00, 0x80, 0x10, 0x90, 0x60]

/-- J1 to J5. -/
theorem test_jumps :
    ([(0xC3, [true, true, true, true, true]), (0xC2, [true, false, true, false, true]),
      (0xCA, [false, true, false, true, false]), (0xD2, [true, true, false, false, true]),
      (0xDA, [false, false, true, true, false])].all fun (row : Byte × List Bool) =>
        (row.2.zip flagBytes).all fun x =>
          let s := start 0 0 x.2 [] [(0, [row.1, 0xFF, 0xAA])]
          stepsTo s { s with pc := if x.1 then 0xAAFF else 0x0003 }) = true := by decide
/-- J6 to J10. -/
theorem test_jumps_at_the_top :
    (let s := start 0xFFFC 0 0 [] [(0xFFFC, [0xC3, 0x34, 0x12])]; stepsTo s { s with pc := 0x1234 }) = true ∧
    (let s := start 0xFFFD 0 0 [] [(0xFFFD, [0xC3, 0x34])]; stepsTo s { s with status := busFault .read }) = true ∧
    (let s := start 0xFFFD 0 0x80 [] [(0xFFFD, [0xC2, 0x34])]; stepsTo s { s with pc := 0x0000 }) = true ∧
    (let s := start 0xFFFE 0 0x80 [] [(0xFFFE, [0xC2])]; stepsTo s { s with pc := 0x0001 }) = true ∧
    (let s := start 0xFFFE 0 0 [] [(0xFFFE, [0xC2])]; stepsTo s { s with status := busFault .read }) = true := by decide
/-- CR1 to CR5; the last two flag bytes after R218 and R220. -/
theorem test_calls :
    ([(0xCD, [true, true, true, true, true]), (0xC4, [true, false, true, false, true]),
      (0xCC, [false, true, false, true, false]), (0xD4, [true, true, false, false, true]),
      (0xDC, [false, false, true, true, false])].all fun (row : Byte × List Bool) =>
        (row.2.zip flagBytes).all fun x =>
          let s := start 0x0100 0x0010 x.2 [] [(0x0100, [row.1, 0xFF, 0xAA])]
          stepsTo s (if x.1 then { withBytes 0x000E [0x03, 0x01] s with sp := 0x000E, pc := 0xAAFF }
            else { s with pc := 0x0103 })) = true := by decide
/-- CR12, CR13, CR14: the push lands on the operand. -/
theorem test_call_over_its_operand :
    (let s := start 0x0100 0x0103 0 [] [(0x0100, [0xCD, 0xFF, 0xAA])]
     stepsTo s { withBytes 0x0101 [0x03, 0x01] s with sp := 0x0101, pc := 0x0103 }) = true ∧
    (let s := start 0x0100 0x0104 0 [] [(0x0100, [0xCD, 0xFF, 0xAA, 0x55])]
     stepsTo s { withBytes 0x0102 [0x03, 0x01] s with sp := 0x0102, pc := 0x03FF }) = true ∧
    (let s := start 0x0100 0x0102 0 [] [(0x0100, [0xCD, 0xFF, 0xAA])]
     stepsTo s { withBytes 0x0100 [0x03, 0x01] s with sp := 0x0100, pc := 0xAA01 }) = true := by decide
/-- CR15, CR16, CR18: the state a stopped call leaves. -/
theorem test_call_stopped :
    (let s := start 0x0100 0x0000 0 [] [(0x0100, [0xCD, 0xFF, 0xAA])]
     stepsTo s { s with sp := 0xFFFF, status := busFault .write }) = true ∧
    (let s := start 0x0100 0x0001 0 [] [(0x0100, [0xCD, 0xFF, 0xAA])]
     stepsTo s { withBytes 0x0000 [0x01] s with sp := 0xFFFF, status := busFault .write }) = true ∧
    (let s := start 0xFFFD 0x0010 0 [] [(0xFFFD, [0xCD, 0x34])]
     stepsTo s { s with sp := 0x000E, status := busFault .read }) = true := by decide
/-- CR6 to CR10; the last two flag bytes after R225 and R227. -/
theorem test_returns :
    ([(0xC9, [true, true, true, true, true]), (0xC0, [true, false, true, false, true]),
      (0xC8, [false, true, false, true, false]), (0xD0, [true, true, false, false, true]),
      (0xD8, [false, false, true, true, false])].all fun (row : Byte × List Bool) =>
        (row.2.zip flagBytes).all fun x =>
          let s := start 0x0200 0x000E x.2 [] [(0x000E, [0x03, 0x01]), (0x0200, [row.1])]
          stepsTo s (if x.1 then { s with sp := 0x0010, pc := 0x0103 } else { s with pc := 0x0201 })) = true := by decide
/-- NH1, NH3, and the second request of NH4. -/
theorem test_nop_and_halt :
    (let s := start 0 0x1234 0xF0 [(.a, 0x01)] []; stepsTo s { s with pc := 1 }) = true ∧
    (let s := start 4 0 0 [] [(4, [0x76])]
     let t := { s with status := .faulted (.unimplementedInstruction .halt) }
     stepsTo s t && stepsTo t t) = true := by decide
/-- X1 to X3 and X5 to X8. -/
theorem test_decoder_faults :
    ([(0x0000, [0x86], .unrecognizedOpcode 0x86 false), (0x0000, [0x3E, 0x42], .unrecognizedOpcode 0x3E false),
      (0x0000, [0xFF], .unrecognizedOpcode 0xFF false), (0x0020, [0xCB, 0x7C], .unrecognizedOpcode 0x7C true),
      (0x0020, [0xCB, 0x00], .unrecognizedOpcode 0x00 true), (0xFFFE, [0xCB], .busFault 0xFFFF .read),
      (0xFFFF, [], .busFault 0xFFFF .read)].all fun (x : Word × List Byte × Fault) =>
        let s := start x.1 0 0 [] [(x.1, x.2.1)]
        stepsTo s { s with status := .faulted x.2.2 }) = true := by decide
/-- The word 0x41 placed at reset is what the first step runs. -/
theorem test_withFetchWord_from_reset :
    stepsTo (State.reset.withFetchWord 8 0x41) { State.reset with pc := 1, mem := [(0x0000, 0x41)] } = true := by decide
/-- Log 16: the bytes of an image past the top address are dropped; the byte at 0x0000 is not touched. -/
theorem test_host_load_past_the_top :
    (hostLoad coreConfig 0xFFFE [0x11, 0x22, 0x33] State.reset).mem = [(0xFFFE, 0x11)] := by decide
/-- R280: reset discards all state. -/
theorem test_reset_leaves_Faulted :
    hostReset { State.reset with a := 1, status := busFault .read } = State.reset := by decide
/-- R24, R283: the low nibble of a host's F byte is lost. -/
theorem test_host_flags_byte : packFlags (start 0 0 0x5A [] []).f = 0x50 := by decide

/-! ### Witnesses of the statements' hypotheses -/

/-- The store the size of the whole address space (R6). -/
def fullConfig : Config where
  memSize := 0x10000
  prefixByte := 0xCB
  admitsHliPair := false

/-- A vocabulary that admits Load(HLI, HLI) (R136). -/
def hliPairConfig : Config where
  memSize := 0xFFFF
  prefixByte := 0xCB
  admitsHliPair := true

theorem witness_DecodingAndEncodingAgree :
    Instr.wellFormed .jpNC = true ∧ decodeBytes [0xCB, 0x7C, 0x00] = .ok (.prefixOp 0x7C) [0x00] ∧
    decodeBytes [0x41] = .ok .ldBC [] := by decide
theorem witness_EveryOtherByteIsUnrecognized :
    let s := start 0xFFFE 0 0 [] [(0xFFFE, [0x86])]
    s.status = .running ∧ s.pc ≠ 0xFFFF ∧ unrecognizedByte (byteAt s s.pc) = true := by decide
theorem witness_DecoderYieldsTheListedInstructionValues :
    7 ∈ List.range 8 ∧ 6 ∈ List.range 8 ∧ ((7, 6) : Nat × Nat) ≠ (6, 6) ∧ decode 0xF5 false = some (.push .af) := by
  decide
theorem witness_PairViewsReadWriteAndRoundTrip : Pair.hl ≠ Pair.af := by decide
theorem witness_AddLaws :
    BitVec.toNat (0xFF : Byte) + BitVec.toNat (0x01 : Byte) = 256 ∧
    -128 ≤ BitVec.toInt (0x40 : Byte) + BitVec.toInt (0x3F : Byte) ∧
    BitVec.toInt (0x40 : Byte) + BitVec.toInt (0x3F : Byte) ≤ 127 ∧
    -128 ≤ BitVec.toInt (0x80 : Byte) + BitVec.toInt (0x00 : Byte) := by decide
/-- HL at the highest address and at the one that does not exist: the clauses of the loads and stores through HL. -/
theorem witness_HlLoad_and_StoreRow :
    readPair .hl (start 0 0 0 [(.h, 0xFF), (.l, 0xFE)] []) ≠ 0xFFFF ∧
    readPair .hl (start 0 0 0 [(.h, 0xFF), (.l, 0xFF)] []) = 0xFFFF := by decide
theorem witness_DecodableLoadsChangeOneThing :
    let s := start 0 0 0 [(.h, 0xFF), (.l, 0xFE), (.a, 1)] []
    valueOf .ldMemA = some (.load .hli (.reg .a)) ∧ s.status = .running ∧
    (∃ u, exec .ldMemA s = .next u ∧ decide (u.status = s.status) = true) ∧
    LoadTarget.hli ≠ .reg .b ∧ (0xFFFD : Word) ≠ readPair .hl s :=
  ⟨rfl, rfl, answers (by decide), by decide, by decide⟩
theorem witness_LoadsWithoutAnOpcode :
    (start 0xFFFD 0 0 [] []).pc + 1 ≠ 0xFFFF ∧ (start 0xFFFE 0 0 [] []).pc + 1 = 0xFFFF ∧
    readPair .hl (start 0xFFFD 0 0 [] []) ≠ 0xFFFF ∧ (0x0001 : Word) ≠ readPair .hl (start 0xFFFD 0 0 [] []) ∧
    hliPairConfig.admitsHliPair = true ∧ coreConfig.admitsHliPair = false ∧
    (readPair .hl (start 0 0 0 [(.h, 0xFF), (.l, 0xFE)] [])).toNat < hliPairConfig.memSize ∧
    hliPairConfig.memSize ≤ (readPair .hl (start 0 0 0 [(.h, 0xFF), (.l, 0xFF)] [])).toNat := by decide
/-- SP at each edge of PUSH, POP, CALL and RET. -/
theorem witness_PushRow_and_PopRow :
    2 ≤ (start 0 0x0002 0 [] []).sp.toNat ∧ 2 ≤ (start 0 0xFFFF 0 [] []).sp.toNat ∧ (start 0 0x0000 0 [] []).sp = 0x0000 ∧
    (start 0 0x0001 0 [] []).sp = 0x0001 ∧ (start 0 0xFFFD 0 [] []).sp ≠ 0xFFFE ∧ (start 0 0xFFFD 0 [] []).sp ≠ 0xFFFF ∧
    (start 0 0xFFFE 0 [] []).sp = 0xFFFE ∧ (start 0 0xFFFF 0 [] []).sp = 0xFFFF := by decide
theorem witness_StackPrimitivesAtTheEdges_sizes :
    coreConfig.memSize = 0xFFFF ∧ fullConfig.memSize = 0x10000 ∧ fullConfig.admissible = true := by decide
theorem witness_StackPrimitivesAtTheEdges_push :
    let s := start 0 0x0002 0 [] []
    push16 coreConfig 0x1234 s = .ok () { s with sp := 0x0000, mem := [(0x0000, 0x34), (0x0001, 0x12)] } := by decide
theorem witness_StackPrimitivesAtTheEdges_pop :
    let s := start 0 0xFFFD 0 [] [(0xFFFD, [0x34, 0x12])]
    pop16 coreConfig s = .ok 0x1234 { s with sp := 0xFFFF } := by decide
theorem witness_PushThenPopReturnsTheWord :
    ((start 0 0x0002 0 [] []).sp - 1).toNat < coreConfig.memSize ∧
    ((start 0 0x0002 0 [] []).sp - 2).toNat < coreConfig.memSize ∧
    ((start 0 0x0000 0 [] []).sp - 1).toNat < fullConfig.memSize ∧
    ((start 0 0x0000 0 [] []).sp - 2).toNat < fullConfig.memSize := by decide
/-- The operand of JP and CALL at the edge of the address space, and each condition either way. -/
theorem witness_JumpRow_and_CallRow :
    (let s := start 0xFFFC 0 0 [] []; s.pc ≠ 0xFFFD ∧ s.pc ≠ 0xFFFE) ∧
    (let s := start 0xFFFF 0 0 [] []; s.pc ≠ 0xFFFD ∧ s.pc ≠ 0xFFFE) ∧
    (let s := start 0xFFFD 0 0 [] []; ¬ (s.pc ≠ 0xFFFD ∧ s.pc ≠ 0xFFFE)) ∧
    (let s := start 0xFFFE 0 0 [] []; ¬ (s.pc ≠ 0xFFFD ∧ s.pc ≠ 0xFFFE)) := by decide
theorem witness_conditions :
    let clear := (start 0 0 0x00 [] []).f
    let set := (start 0 0 0x90 [] []).f
    condHolds .always clear = true ∧ condHolds .notZero clear = true ∧ condHolds .notZero set = false ∧
    condHolds .zero clear = false ∧ condHolds .zero set = true ∧ condHolds .notCarry clear = true ∧
    condHolds .notCarry set = false ∧ condHolds .carry clear = false ∧ condHolds .carry set = true := by decide
theorem witness_CallOverItsOwnOperandReadsThePushedBytes :
    [0x0103, 0x0102, 0x0104].all (fun sp =>
      let s := start 0x0100 sp 0 [] [(0x0100, [0xCD, 0xFF, 0xAA])]
      decide ((Instr.call, Cond.always) ∈ callRows) && condHolds .always s.f && decide (2 ≤ s.sp.toNat) &&
      decide (s.pc ≠ 0xFFFD ∧ s.pc ≠ 0xFFFE) && decide (s.sp = s.pc + 3 ∨ s.sp = s.pc + 2 ∨ s.sp = s.pc + 4)) = true := by
  decide
theorem witness_ReturnUndoesItsCall :
    let s := start 0x0100 0x0010 0 [] [(0x0100, [0xCD, 0xFF, 0xAA])]
    (Instr.call, Cond.always) ∈ callRows ∧ (Instr.retNZ, Cond.notZero) ∈ retRows ∧ s.status = .running ∧
    condHolds .always s.f = true ∧
    ∃ t, exec .call s = .next t ∧
      (let u := { t with a := 0x55, pc := 0x0200 }
       decide (t.status = .running ∧ u.sp = t.sp ∧ byteAt u t.sp = byteAt t t.sp ∧
         byteAt u (t.sp + 1) = byteAt t (t.sp + 1) ∧ condHolds .notZero u.f = true)) = true :=
  ⟨by decide, by decide, by decide, by decide, answers (by decide)⟩
theorem witness_NopAdvancesPcOnly :
    (let s := start 0xFFFE 0 0 [] []; s.status = .running ∧ s.pc ≠ 0xFFFF ∧ byteAt s s.pc = 0x00) ∧
    State.reset.status = .running ∧ State.reset.pc = 0x0000 ∧ State.reset.mem = [] := by decide
theorem witness_HaltIsDecodedAndTakesUnimplementedInstruction :
    let s := start 0xFFFE 0 0 [] [(0xFFFE, [0x76])]
    s.status = .running ∧ s.pc ≠ 0xFFFF ∧ byteAt s s.pc = 0x76 ∧
    ∃ t, step s = .next t ∧ decide (t.status = .faulted (.unimplementedInstruction .halt)) = true :=
  ⟨by decide, by decide, by decide, answers (by decide)⟩
theorem witness_PrefixedOpcodesAreAllUnrecognized :
    (let s := start 0xFFFD 0 0 [] [(0xFFFD, [0xCB, 0x40])]
     s.status = .running ∧ s.pc ≠ 0xFFFF ∧ byteAt s s.pc = 0xCB ∧ s.pc ≠ 0xFFFE) ∧
    (let s := start 0xFFFE 0 0 [] [(0xFFFE, [0xCB])]
     s.status = .running ∧ s.pc ≠ 0xFFFF ∧ byteAt s s.pc = 0xCB ∧ s.pc = 0xFFFE) ∧
    (let s := start 0xFFFE 0 0 [] [(0xFFFE, [0xCA])]; s.pc ≠ 0xFFFF ∧ byteAt s s.pc ≠ 0xCB) := by decide
theorem witness_FetchReadsTheByteAtPc :
    (let s := start 0xFFFF 0 0 [] []; s.pc = 0xFFFF ∧ s.status = .running) ∧
    (let s := start 0xFFFE 0 0 [] []; s.pc ≠ 0xFFFF ∧ byteAt s s.pc ≠ 0xCB) := by decide
theorem witness_StepRunsTheDecodedInstruction :
    (let s := start 0xFFFE 0 0 [] [(0xFFFE, [0x41])]
     s.status = .running ∧ s.pc ≠ 0xFFFF ∧ (byteAt s s.pc = 0xCB → s.pc ≠ 0xFFFE) ∧ Instr.wellFormed .ldBC = true ∧
     decodeBytes [byteAt s s.pc, byteAt s (s.pc + 1), byteAt s (s.pc + 2)] = .ok .ldBC [0x00, 0x00]) ∧
    (let s := start 0xFFFD 0 0 [] [(0xFFFD, [0xCB, 0x7C])]
     s.status = .running ∧ s.pc ≠ 0xFFFF ∧ (byteAt s s.pc = 0xCB → s.pc ≠ 0xFFFE) ∧
     Instr.wellFormed (.prefixOp 0x7C) = true ∧
     decodeBytes [byteAt s s.pc, byteAt s (s.pc + 1), byteAt s (s.pc + 2)] = .ok (.prefixOp 0x7C) [0x00]) := by decide
theorem witness_AssembledJumpGoesToItsOperand :
    let s := start 0xFFFC 0 0 [] [(0xFFFC, [0xC2, 0x34, 0x12])]
    (Instr.jpNZ, Cond.notZero) ∈ jumpRows ∧ s.status = .running ∧ s.pc.toNat + 2 < 0xFFFF ∧
    [byteAt s s.pc, byteAt s (s.pc + 1), byteAt s (s.pc + 2)] = assemble .jpNZ 0x1234 := by decide
theorem witness_FaultedMachineStaysAsItIs :
    { State.reset with status := busFault .write }.status = .faulted (.busFault 0xFFFF .write) := by decide
theorem witness_StepKeepsTheInvariant :
    let s := start 0x0100 0x0001 0 [] [(0x0100, [0xCD, 0xFF, 0xAA]), (0xFFFE, [0x01])]
    Inv s ∧ ∃ t, step s = .next t ∧ decide (t.status = busFault .write) = true :=
  ⟨⟨by decide, by decide⟩, answers (by decide)⟩
theorem witness_FlagsChangeOnlyByAddAndPopAf :
    (∃ t, exec .pushAF (start 0 2 0xF0 [] []) = .next t ∧ decide (t.sp = 0) = true) ∧
    Instr.pushAF ∉ [Instr.addAB, .addAC, .addAD, .addAE, .addAH, .addAL, .addAA, .popAF] :=
  ⟨answers (by decide), by decide⟩
theorem witness_MemoryChangesOnlyWhereTheInstructionStores :
    let s := start 0 0x0002 0 [(.b, 1), (.c, 2)] []
    (0x0002 : Word) ∉ storedAddresses .pushBC s ∧ (0x0000 : Word) ∉ storedAddresses .callZ s ∧
    ∃ t, exec .pushBC s = .next t ∧ decide (byteAt t 0x0001 = 1) = true :=
  ⟨by decide, by decide, answers (by decide)⟩
theorem witness_RegistersChangeOnlyWhereNamed :
    let s := start 0 0x0100 0 [] []
    writesReg .popBC .d = false ∧ movesSp .ldBC s = false ∧ movesSp .callZ s = false ∧ movesSp .popBC s = true ∧
    s.status = .running ∧ ∃ t, exec .popBC s = .next t ∧ decide (t.status = .running) = true :=
  ⟨by decide, by decide, by decide, by decide, by decide, answers (by decide)⟩
/-- A CALL at 0xFFFD: the push completes, the operand read faults. -/
theorem witness_FatalConditionKeepsPcFlagsAndRegisters :
    let s := start 0xFFFD 0x0010 0 [] [(0xFFFD, [0xCD, 0x34])]
    s.status = .running ∧ ∃ t, step s = .next t ∧ decide (t.status = .faulted (.busFault 0xFFFF .read)) = true :=
  ⟨by decide, answers (by decide)⟩
/-- A NOP at the top address of the full store. -/
theorem witness_FullSizeStoreNeverFaults :
    let s := start 0xFFFF 0 0 [] []
    fullConfig.memSize = 0x10000 ∧ s.status = .running ∧
    ∃ t, stepWith fullConfig s = .next t ∧ decide (t.pc = 0x0000) = true :=
  ⟨by decide, by decide, answers (by decide)⟩
theorem witness_BusPrimitivesReadAndWriteOneByte :
    BitVec.toNat (0xFFFE : Word) < coreConfig.memSize ∧ coreConfig.memSize ≤ BitVec.toNat (0xFFFF : Word) ∧
    BitVec.toNat (0xFFFF : Word) < fullConfig.memSize ∧ (0xFFFD : Word) ≠ 0xFFFE := by decide
theorem witness_StoresThatReadAlikeAreEqual :
    Memory.wf coreConfig [(0x0000, 0x11), (0xFFFE, 0x22)] = true ∧
    ∀ a : Nat, a < coreConfig.memSize →
      Memory.read (Memory.write [(0xFFFE, 0x22)] 0x0000 0x11) a = Memory.read [(0x0000, 0x11), (0xFFFE, 0x22)] a :=
  ⟨by decide, fun _ _ => rfl⟩
theorem witness_StoreIsSeenByTheNextFetch :
    let s := start 0xFFFD 0 0 [(.h, 0xFF), (.l, 0xFE), (.a, 0x41)] [(0xFFFD, [0x77])]
    (Instr.ldMemA, Reg.a) ∈ storeRows ∧ readPair .hl s = s.pc + 1 ∧ s.pc + 1 ≠ 0xFFFF ∧ getReg .a s ≠ 0xCB := by decide
/-- J8 and CR19: an untaken conditional form at 0xFFFD. -/
theorem witness_WrapShowsOnlyAfterAnUntakenJumpOrCall :
    ([(0xC2, Instr.jpNZ), (0xC4, .callNZ)].all fun (x : Byte × Instr) =>
      let s := start 0xFFFD 0x0010 0x80 [] [(0xFFFD, [x.1, 0x34])]
      decide (s.status = .running ∧ fetchInstr coreConfig s = .ok x.2 s ∧ transfersControl x.2 s = false ∧
        65536 ≤ s.pc.toNat + lengthOf x.2) &&
      (nextOf (exec x.2 s)).any fun t => decide (t.status = .running)) = true := by decide
theorem witness_SubtractAndHalfCarryReachNothingButPushAf :
    Instr.popAF ≠ .pushAF ∧ ∃ t, exec .popAF (start 0 0x0100 0x60 [] []) = .next t ∧ decide (t.sp = 0x0102) = true :=
  ⟨by decide, answers (by decide)⟩
theorem witness_RunsEndInOneOfTwoWays : isRunning State.reset = true := by decide
theorem witness_PlacedWordRunsNext :
    (start 0xFFFD 0 0 [] []).pc.toNat < 0xFFFE ∧ decodeTableWord 16 0x7CCB = some (.prefixOp 0x7C) ∧
    decodeTableWord 24 0x1234C3 = some .jp := by decide

end Sys2Proof.Tests
end

/-! SUPPORT. The ways an instruction value can end, said once (`Ends`), and what every way keeps of the invariant (O33). -/

namespace Sys2Proof.Machine

/-! ### How the stack primitives stop -/

/-- The ways `push16` stops: the address that does not exist, and the state reached (R150, R245). -/
inductive PushStop (c : Config) (w : Word) (s : State) : Word → State → Prop
  | first (h : isOutOfBounds c (s.sp - 1) = true) : PushStop c w s (s.sp - 1) (setSp (s.sp - 1) s)
  | second (h1 : isOutOfBounds c (s.sp - 1) = false) (h2 : isOutOfBounds c (s.sp - 2) = true) :
      PushStop c w s (s.sp - 2) (setSp (s.sp - 2) (putByte (s.sp - 1) (hi8 w) (setSp (s.sp - 1) s)))

/-- The ways `pop16` stops (R151, R245). -/
inductive PopStop (c : Config) (s : State) : Word → State → Prop
  | first (h : isOutOfBounds c s.sp = true) : PopStop c s s.sp s
  | second (h1 : isOutOfBounds c s.sp = false) (h2 : isOutOfBounds c (s.sp + 1) = true) :
      PopStop c s (s.sp + 1) (setSp (s.sp + 1) s)

/-- Both bytes a push writes exist. -/
def PushFits (c : Config) (s : State) : Prop :=
  isOutOfBounds c (s.sp - 1) = false ∧ isOutOfBounds c (s.sp - 2) = false

/-- Both bytes a pop reads exist. -/
def PopFits (c : Config) (s : State) : Prop :=
  isOutOfBounds c s.sp = false ∧ isOutOfBounds c (s.sp + 1) = false

/-- The word at the top of the stack (R151). -/
def topWord (s : State) : Word := concat (byteAt s (s.sp + 1)) (byteAt s s.sp)

theorem push16_cases (c : Config) (w : Word) (s : State) :
    (PushFits c s ∧ push16 c w s = .ok () (pushed w s)) ∨
    ∃ a s1, PushStop c w s a s1 ∧ push16 c w s = .raised (.busFault a .write) s1 := by
  cases h1 : isOutOfBounds c (s.sp - 1) with
  | true => exact .inr ⟨_, _, .first h1, by simp only [push16_eq, h1, if_true]⟩
  | false =>
    cases h2 : isOutOfBounds c (s.sp - 2) with
    | true => exact .inr ⟨_, _, .second h1 h2, by simp only [push16_eq, h1, h2, Bool.false_eq_true, if_true, if_false]⟩
    | false => exact .inl ⟨⟨h1, h2⟩, by simp only [push16_eq, h1, h2, Bool.false_eq_true, if_false]⟩

theorem pop16_cases (c : Config) (s : State) :
    (PopFits c s ∧ pop16 c s = .ok (topWord s) (setSp (s.sp + 2) s)) ∨
    ∃ a s1, PopStop c s a s1 ∧ pop16 c s = .raised (.busFault a .read) s1 := by
  cases h1 : isOutOfBounds c s.sp with
  | true => exact .inr ⟨_, _, .first h1, by simp only [pop16_eq, h1, if_true]⟩
  | false =>
    cases h2 : isOutOfBounds c (s.sp + 1) with
    | true => exact .inr ⟨_, _, .second h1 h2, by simp only [pop16_eq, h1, h2, Bool.false_eq_true, if_true, if_false]⟩
    | false => exact .inl ⟨⟨h1, h2⟩, by simp only [pop16_eq, h1, h2, topWord, Bool.false_eq_true, if_false]⟩

theorem memRead_cases (c : Config) (a : Word) (s : State) :
    (isOutOfBounds c a = false ∧ memRead c a s = .ok (byteAt s a) s) ∨
    (isOutOfBounds c a = true ∧ memRead c a s = .raised (.busFault a .read) s) := by
  cases h : isOutOfBounds c a <;> simp [memRead, h]

theorem imm16_cases (c : Config) (s : State) :
    (isOutOfBounds c (s.pc + 1) = false ∧ isOutOfBounds c (s.pc + 2) = false ∧
      imm16 c s = .ok (concat (byteAt s (s.pc + 2)) (byteAt s (s.pc + 1))) s) ∨
    ∃ a, isOutOfBounds c a = true ∧ imm16 c s = .raised (.busFault a .read) s := by
  cases h1 : isOutOfBounds c (s.pc + 1) with
  | true => exact .inr ⟨_, h1, by simp only [imm16_eq, h1, if_true]⟩
  | false =>
    cases h2 : isOutOfBounds c (s.pc + 2) with
    | true => exact .inr ⟨_, h2, by simp only [imm16_eq, h1, h2, Bool.false_eq_true, if_true, if_false]⟩
    | false => exact .inl ⟨rfl, rfl, by simp only [imm16_eq, h1, h2, Bool.false_eq_true, if_false]⟩

theorem readSource_cases (c : Config) (src : LoadSource) (s : State) :
    (∃ v, readSource c src s = .ok v s) ∨
    ∃ a, isOutOfBounds c a = true ∧ readSource c src s = .raised (.busFault a .read) s := by
  cases src with
  | reg r => exact .inl ⟨_, rfl⟩
  | hli =>
    rcases memRead_cases c (readPair .hl s) s with ⟨-, h⟩ | ⟨ha, h⟩
    · exact .inl ⟨_, h⟩
    · exact .inr ⟨_, ha, h⟩
  | d8 =>
    rcases memRead_cases c (s.pc + 1) s with ⟨-, h⟩ | ⟨ha, h⟩
    · exact .inl ⟨_, h⟩
    · exact .inr ⟨_, ha, h⟩

/-! ### How an instruction value can end -/

/-- What `execute` can answer, one constructor for each way an instruction value ends (R115, R245). -/
inductive Ends (c : Config) (s : State) : InstrValue → Result Word → Prop
  | nop : Ends c s .nop (.ok (s.pc + 1) s)
  | unimplemented {v : InstrValue} (h : v = .halt ∨ v.wellFormed = false) :
      Ends c s v (.raised (.unimplementedInstruction v) s)
  | loadReg {r : Reg} {src : LoadSource} {x : Byte} (h : readSource c src s = .ok x s) :
      Ends c s (.load (.reg r) src) (.ok (s.pc + loadLength src) (setReg r x s))
  | loadMem {src : LoadSource} {x : Byte} (h : readSource c src s = .ok x s)
      (hl : isOutOfBounds c (readPair .hl s) = false) :
      Ends c s (.load .hli src) (.ok (s.pc + loadLength src) (putByte (readPair .hl s) x s))
  | loadStop {t : LoadTarget} {src : LoadSource} {a : Word} {access : Access} (h : isOutOfBounds c a = true) :
      Ends c s (.load t src) (.raised (.busFault a access) s)
  | push {p : Pair} (h : PushFits c s) : Ends c s (.push p) (.ok (s.pc + 1) (pushed (readPair p s) s))
  | pushStop {p : Pair} {a : Word} {s1 : State} (h : PushStop c (readPair p s) s a s1) :
      Ends c s (.push p) (.raised (.busFault a .write) s1)
  | pop {p : Pair} (h : PopFits c s) :
      Ends c s (.pop p) (.ok (s.pc + 1) (writePair p (topWord s) (setSp (s.sp + 2) s)))
  | popStop {p : Pair} {a : Word} {s1 : State} (h : PopStop c s a s1) :
      Ends c s (.pop p) (.raised (.busFault a .read) s1)
  | add {r : Reg} {x : Byte × Flags} (h : x = add8 s.a (getReg r s)) :
      Ends c s (.add r) (.ok (s.pc + 1) (setFlags x.2 (setReg .a x.1 s)))
  | jump {k : Cond} {w : Word} (h : condHolds k s.f = true) (hw : imm16 c s = .ok w s) : Ends c s (.jump k) (.ok w s)
  | jumpStop {k : Cond} {a : Word} (h : condHolds k s.f = true) (ha : isOutOfBounds c a = true) :
      Ends c s (.jump k) (.raised (.busFault a .read) s)
  | jumpUntaken {k : Cond} (h : condHolds k s.f = false) : Ends c s (.jump k) (.ok (s.pc + 3) s)
  | call {k : Cond} {w : Word} (h : condHolds k s.f = true) (hp : PushFits c s)
      (hw : imm16 c (pushed (s.pc + 3) s) = .ok w (pushed (s.pc + 3) s)) :
      Ends c s (.call k) (.ok w (pushed (s.pc + 3) s))
  | callPushStop {k : Cond} {a : Word} {s1 : State} (h : condHolds k s.f = true)
      (hp : PushStop c (s.pc + 3) s a s1) : Ends c s (.call k) (.raised (.busFault a .write) s1)
  | callOperandStop {k : Cond} {a : Word} (h : condHolds k s.f = true) (hp : PushFits c s)
      (ha : isOutOfBounds c a = true) : Ends c s (.call k) (.raised (.busFault a .read) (pushed (s.pc + 3) s))
  | callUntaken {k : Cond} (h : condHolds k s.f = false) : Ends c s (.call k) (.ok (s.pc + 3) s)
  | ret {k : Cond} (h : condHolds k s.f = true) (hp : PopFits c s) :
      Ends c s (.ret k) (.ok (topWord s) (setSp (s.sp + 2) s))
  | retStop {k : Cond} {a : Word} {s1 : State} (h : condHolds k s.f = true) (hp : PopStop c s a s1) :
      Ends c s (.ret k) (.raised (.busFault a .read) s1)
  | retUntaken {k : Cond} (h : condHolds k s.f = false) : Ends c s (.ret k) (.ok (s.pc + 1) s)

theorem load_ends (c : Config) (t : LoadTarget) (src : LoadSource) (s : State) :
    Ends c s (.load t src) (load c t src s) := by
  unfold load
  rcases readSource_cases c src s with ⟨x, hx⟩ | ⟨a, ha, hx⟩
  · rw [hx, Result.andThen_ok]
    cases t with
    | reg r => simpa [writeTarget] using Ends.loadReg hx
    | hli =>
      cases hl : isOutOfBounds c (readPair .hl s) with
      | true => simpa [writeTarget, memWrite, hl] using Ends.loadStop hl
      | false => simpa [writeTarget, memWrite, hl] using Ends.loadMem hx hl
  · rw [hx]; exact .loadStop ha

theorem push_ends (c : Config) (p : Pair) (s : State) : Ends c s (.push p) (push c p s) := by
  unfold push
  rcases push16_cases c (readPair p s) s with ⟨hp, h⟩ | ⟨a, s1, hp, h⟩
  · rw [h]; exact .push hp
  · rw [h]; exact .pushStop hp

theorem pop_ends (c : Config) (p : Pair) (s : State) : Ends c s (.pop p) (pop c p s) := by
  unfold pop
  rcases pop16_cases c s with ⟨hp, h⟩ | ⟨a, s1, hp, h⟩
  · rw [h]; simpa using Ends.pop (p := p) hp
  · rw [h]; exact .popStop hp

theorem addToA_ends (c : Config) (r : Reg) (s : State) : Ends c s (.add r) (addToA r s) := .add rfl

theorem jump_ends (c : Config) (k : Cond) (s : State) : Ends c s (.jump k) (jump c k s) := by
  unfold jump
  cases hk : condHolds k s.f with
  | false => exact .jumpUntaken hk
  | true =>
    rcases imm16_cases c s with ⟨-, -, h⟩ | ⟨a, ha, h⟩
    · simpa [h] using Ends.jump hk h
    · simpa [h] using Ends.jumpStop hk ha

theorem call_ends (c : Config) (k : Cond) (s : State) : Ends c s (.call k) (call c k s) := by
  unfold call
  cases hk : condHolds k s.f with
  | false => exact .callUntaken hk
  | true =>
    rcases push16_cases c (s.pc + 3) s with ⟨hp, h⟩ | ⟨a, s1, hp, h⟩
    · rcases imm16_cases c (pushed (s.pc + 3) s) with ⟨-, -, hw⟩ | ⟨a, ha, hw⟩
      · simp only [if_true, h, Result.andThen_ok, hw]; exact .call hk hp hw
      · simp only [if_true, h, Result.andThen_ok, hw]; exact .callOperandStop hk hp ha
    · simp only [if_true, h, Result.andThen_raised]; exact .callPushStop hk hp

theorem ret_ends (c : Config) (k : Cond) (s : State) : Ends c s (.ret k) (ret c k s) := by
  unfold ret
  cases hk : condHolds k s.f with
  | false => exact .retUntaken hk
  | true =>
    rcases pop16_cases c s with ⟨hp, h⟩ | ⟨a, s1, hp, h⟩
    · simpa [h] using Ends.ret hk hp
    · simpa [h] using Ends.retStop hk hp

/-- Every instruction value ends in one of the ways of `Ends`. -/
theorem execute_ends (c : Config) (v : InstrValue) (s : State) : Ends c s v (execute c v s) := by
  cases v with
  | nop => exact .nop
  | halt => exact .unimplemented (.inl rfl)
  | load t src =>
    cases h : hasLoadHandler c t src with
    | true => rw [execute_load h]; exact load_ends c t src s
    | false =>
      have hv : (InstrValue.load t src).wellFormed = false :=
        Bool.eq_false_iff.2 fun hw => by simp [hasLoadHandler_of_wellFormed c hw] at h
      simpa [execute, h, noHandler] using Ends.unimplemented (.inr hv)
  | push p => exact push_ends c p s
  | pop p => exact pop_ends c p s
  | add r => exact addToA_ends c r s
  | jump k => exact jump_ends c k s
  | call k => exact call_ends c k s
  | ret k => exact ret_ends c k s
  | multiByteLoad => exact .unimplemented (.inr rfl)

/-! ### What the commit keeps of the state a handler reached -/

/-- The state a computation has reached, whether it raised or not. -/
def Result.state {α : Type} : Result α → State
  | .ok _ s => s
  | .raised _ s => s

@[simp] theorem Result.state_ok {α : Type} (x : α) (s : State) : (Result.ok x s).state = s := rfl
@[simp] theorem Result.state_raised {α : Type} (f : Fault) (s : State) : (Result.raised f s : Result α).state = s := rfl

/-- A commit or a trap entry changes PC and the status only (R116, R244). -/
theorem commit_frame {r : Result Word} {t : State} (h : commit r = .next t) :
    ∃ w st, t = setPc w (setStatus st r.state) := by
  cases r with
  | ok w s => cases h; exact ⟨w, s.status, rfl⟩
  | raised cause s => cases h; exact ⟨s.pc, .faulted cause, rfl⟩

/-- What an instruction does: the commit of a handler that ended in one of the ways of `Ends`, or the fatal condition
of the row PREFIX (R113). -/
theorem exec_cases {i : Instr} {s t : State} (h : exec i s = .next t) :
    (∃ v r, valueOf i = some v ∧ Ends coreConfig s v r ∧ commit r = .next t) ∨
    ∃ b, i = .prefixOp b ∧ t = takeFatal (.unrecognizedOpcode b true) s := by
  cases hv : valueOf i with
  | some v => exact .inl ⟨v, _, rfl, execute_ends coreConfig v s, exec_of_value hv s ▸ h⟩
  | none =>
    obtain ⟨b, rfl⟩ := eq_prefixOp_of_valueOf_none hv
    cases h
    exact .inr ⟨b, rfl, rfl⟩

/-! ### The invariant -/

theorem PushStop.wf {c : Config} {w a : Word} {s s1 : State} (h : PushStop c w s a s1) (hm : s.mem.wf c = true) :
    s1.mem.wf c = true := by
  cases h with
  | first => exact hm
  | second h1 => exact wf_putByte (s := setSp (s.sp - 1) s) h1 _ hm

theorem PopStop.mem {c : Config} {a : Word} {s s1 : State} (h : PopStop c s a s1) : s1.mem = s.mem := by
  cases h <;> rfl

theorem PushStop.outOfBounds {c : Config} {w a : Word} {s s1 : State} (h : PushStop c w s a s1) :
    isOutOfBounds c a = true := by
  cases h <;> assumption

theorem PopStop.outOfBounds {c : Config} {a : Word} {s s1 : State} (h : PopStop c s a s1) :
    isOutOfBounds c a = true := by
  cases h <;> assumption

theorem PushFits.wf_pushed {c : Config} {s : State} (h : PushFits c s) (w : Word) (hm : s.mem.wf c = true) :
    (pushed w s).mem.wf c = true :=
  Machine.wf_pushed w h.1 h.2 hm

/-- Every instruction value keeps the store canonical, stopped ones among them. -/
theorem Ends.wf {c : Config} {s : State} {v : InstrValue} {r : Result Word} (h : Ends c s v r)
    (hm : s.mem.wf c = true) : r.state.mem.wf c = true := by
  cases h with
  | loadMem _ hl => exact wf_putByte hl _ hm
  | push hp => exact hp.wf_pushed _ hm
  | pushStop hp => exact hp.wf hm
  | popStop hp => exact hp.mem ▸ hm
  | call _ hp => exact hp.wf_pushed _ hm
  | callPushStop _ hp => exact hp.wf hm
  | callOperandStop _ hp => exact hp.wf_pushed _ hm
  | retStop _ hp => exact hp.mem ▸ hm
  | _ => simpa using hm

/-- A handler that returns leaves the run status alone (R35). -/
theorem Ends.status {c : Config} {s s1 : State} {v : InstrValue} {w : Word} (h : Ends c s v (.ok w s1)) :
    s1.status = s.status := by
  cases h <;> simp

theorem legalCause_busFault {c : Config} {a : Word} {access : Access} (h : isOutOfBounds c a = true) :
    legalCause c (.busFault a access) = true := h

/-- A value that some byte decodes to stops with a cause the machine can record (R242, R243). -/
theorem Ends.legalCause {c : Config} {s s1 : State} {v : InstrValue} {cause : Fault}
    (h : Ends c s v (.raised cause s1)) (hv : v.wellFormed = true) : legalCause c cause = true := by
  cases h with
  | unimplemented hu =>
    rcases hu with rfl | hu
    · rfl
    · simp [hv] at hu
  | loadStop ha | jumpStop _ ha | callOperandStop _ _ ha => exact legalCause_busFault ha
  | pushStop hp | callPushStop _ hp => exact legalCause_busFault hp.outOfBounds
  | popStop hp | retStop _ hp => exact legalCause_busFault hp.outOfBounds

theorem wellFormed_of_valueOf {i : Instr} {v : InstrValue} (h : valueOf i = some v) : v.wellFormed = true := by
  cases i <;> cases h <;> rfl

theorem takeFatal_inv {s : State} {cause : Fault} (hm : s.mem.wf coreConfig = true)
    (hc : legalCause coreConfig cause = true) : Inv (takeFatal cause s) := ⟨hm, hc⟩

/-- Every instruction, in every state that meets the invariant, keeps it. -/
theorem exec_keeps_inv {i : Instr} {s t : State} (hs : Inv s) (h : exec i s = .next t) : Inv t := by
  obtain ⟨hm, hst⟩ := hs
  rcases exec_cases h with ⟨v, r, hv, he, hr⟩ | ⟨b, rfl, rfl⟩
  · have hm' := he.wf hm
    cases r with
    | ok w s1 => cases hr; exact ⟨hm', by simpa [he.status] using hst⟩
    | raised cause s1 => cases hr; exact takeFatal_inv hm' (he.legalCause (wellFormed_of_valueOf hv))
  · exact takeFatal_inv hm rfl

/-- A byte without an entry in the unprefixed table is 0xCB or one of the 160 of R90: a fact about 256 bytes. -/
theorem unrecognizedByte_of_decodeOpcode_none :
    ∀ b : Byte, decodeOpcode b = none → b ≠ 0xCB → unrecognizedByte b = true := by
  decide

/-- Fetch and decode raise only causes the machine can record (R241, R243). -/
theorem fetchInstr_legalCause {s s1 : State} {cause : Fault} (h : fetchInstr coreConfig s = .raised cause s1) :
    legalCause coreConfig cause = true := by
  unfold fetchInstr at h
  rw [fetch_eq] at h
  split at h
  · next ha => cases h; exact legalCause_busFault ha
  · split at h
    · split at h
      · next ha => cases h; exact legalCause_busFault ha
      · cases h
    · next hb =>
      simp only [Result.andThen_ok, decodeFetched, Bool.false_eq_true, if_false] at h
      split at h
      · cases h
      · next hd =>
        cases h
        simpa [legalCause] using ⟨unrecognizedByte_of_decodeOpcode_none _ hd hb, hb⟩

/-- Settles O33: a step is nothing, a legal fatal condition of the fetch, or one instruction. -/
theorem stepKeepsTheInvariant : Obligations.StepKeepsTheInvariant := by
  intro s t hs h
  rcases step_cases s with ⟨_, -, hstep⟩ | ⟨cause, -, hf, hstep⟩ | ⟨i, -, -, hstep⟩
  · cases hstep.symm.trans h; exact hs
  · cases hstep.symm.trans h; exact takeFatal_inv hs.1 (fetchInstr_legalCause hf)
  · exact exec_keeps_inv hs (hstep.symm.trans h)

end Sys2Proof.Machine

/-! SUPPORT. Frames of an instruction: what every end of `Ends` leaves of the flags, the registers and SP (O36,
O38; R21, R30, R34). -/

namespace Sys2Proof.Machine

open Sys2Proof.Claim

/-! ### The stops of the stack primitives move SP only, among the registers -/

theorem PushStop.f {c : Config} {w a : Word} {s s1 : State} (h : PushStop c w s a s1) : s1.f = s.f := by
  cases h <;> rfl

theorem PushStop.getReg {c : Config} {w a : Word} {s s1 : State} (h : PushStop c w s a s1) (x : Reg) :
    getReg x s1 = getReg x s := by
  cases h <;> simp

theorem PopStop.f {c : Config} {a : Word} {s s1 : State} (h : PopStop c s a s1) : s1.f = s.f := by
  cases h <;> rfl

theorem PopStop.getReg {c : Config} {a : Word} {s s1 : State} (h : PopStop c s a s1) (x : Reg) :
    getReg x s1 = getReg x s := by
  cases h <;> simp

/-! ### Flags -/

/-- Whether a value writes the flags: ADD A,r and POP AF (R30). -/
def writesFlags : InstrValue → Bool
  | .add _ => true
  | .pop .af => true
  | _ => false

theorem eq_add_or_popAF_of_writesFlags {v : InstrValue} (h : writesFlags v = true) :
    (∃ r, v = .add r) ∨ v = .pop .af := by
  unfold writesFlags at h
  split at h
  · exact .inl ⟨_, rfl⟩
  · exact .inr rfl
  · cases h

/-- Every other value leaves the flags as they were, stopped or not. -/
theorem Ends.f {c : Config} {s : State} {v : InstrValue} {r : Result Word} (h : Ends c s v r)
    (hv : writesFlags v = false) : r.state.f = s.f := by
  cases h with
  | pushStop hp | callPushStop _ hp => exact hp.f
  | popStop hp | retStop _ hp => exact hp.f
  | add => cases hv
  | @pop p =>
    have hp : p ≠ .af := by rintro rfl; cases hv
    simp [writePair_f hp]
  | _ => simp

theorem commit_f {r : Result Word} {t : State} (h : commit r = .next t) : t.f = r.state.f := by
  obtain ⟨w, st, rfl⟩ := commit_frame h; rfl

theorem commit_sp {r : Result Word} {t : State} (h : commit r = .next t) : t.sp = r.state.sp := by
  obtain ⟨w, st, rfl⟩ := commit_frame h; rfl

theorem commit_getReg {r : Result Word} {t : State} (h : commit r = .next t) (x : Reg) :
    getReg x t = getReg x r.state := by
  obtain ⟨w, st, rfl⟩ := commit_frame h; simp

/-- The rows whose value writes flags: the seven ADD and POP AF. -/
theorem mem_flagRows_of_writesFlags {i : Instr} {v : InstrValue} (hv : valueOf i = some v) (h : writesFlags v = true) :
    i ∈ [Instr.addAB, .addAC, .addAD, .addAE, .addAH, .addAL, .addAA, .popAF] := by
  rcases eq_add_or_popAF_of_writesFlags h with ⟨r, rfl⟩ | rfl <;> cases i <;> cases hv <;> decide

/-- Settles O36: a row that writes no flag commits a state with the flags it began with. -/
theorem flagsChangeOnlyByAddAndPopAf : Obligations.FlagsChangeOnlyByAddAndPopAf := by
  intro i s t h hi
  rcases exec_cases h with ⟨v, r, hv, he, hr⟩ | ⟨b, rfl, rfl⟩
  · have hw : writesFlags v = false := Bool.eq_false_iff.2 fun hw => hi (mem_flagRows_of_writesFlags hv hw)
    exact (commit_f hr).trans (he.f hw)
  · rfl

/-! ### General registers -/

/-- A pair write leaves the registers that are no half of the pair (R27, R28). -/
theorem getReg_writePair_other {p : Pair} {x : Reg} {i : Instr} (hv : valueOf i = some (.pop p))
    (hx : writesReg i x = false) (w : Word) (s : State) : getReg x (writePair p w s) = getReg x s := by
  cases p with
  | af =>
    have hxa : x ≠ .a := by simpa [writesReg, hv] using hx
    simp [writePair, getReg_setReg_other hxa]
  | bc | de | hl =>
    simp only [writesReg, hv, Bool.or_eq_false_iff, beq_eq_false_iff_ne] at hx
    obtain ⟨hhigh, hlow⟩ := hx
    rw [writePair, getReg_setReg_other hlow, getReg_setReg_other hhigh]

/-- An instruction leaves every register that `writesReg` does not name (R21). -/
theorem Ends.getReg {c : Config} {s : State} {i : Instr} {v : InstrValue} {r : Result Word} (h : Ends c s v r)
    (hv : valueOf i = some v) {x : Reg} (hx : writesReg i x = false) : getReg x r.state = getReg x s := by
  cases h with
  | loadReg =>
    exact getReg_setReg_other (by simpa [writesReg, hv] using hx) _ _
  | add =>
    have hxa : x ≠ .a := by simpa [writesReg, hv] using hx
    simp [getReg_setReg_other hxa]
  | pop => simp [getReg_writePair_other hv hx]
  | pushStop hp | callPushStop _ hp => exact hp.getReg x
  | popStop hp | retStop _ hp => exact hp.getReg x
  | _ => simp

/-! ### SP -/

/-- SP stays where `movesSp` says so (R34). -/
theorem Ends.sp_of_not_movesSp {c : Config} {s : State} {i : Instr} {v : InstrValue} {r : Result Word}
    (h : Ends c s v r) (hv : valueOf i = some v) (hm : movesSp i s = false) : r.state.sp = s.sp := by
  cases h with
  | push | pushStop | pop | popStop => simp [movesSp, hv] at hm
  | call hk | callPushStop hk | callOperandStop hk | ret hk | retStop hk => simp [movesSp, hv, hk] at hm
  | _ => simp

/-- A value that moves SP and returns moves it by 2. -/
theorem Ends.sp_of_movesSp {c : Config} {s s1 : State} {i : Instr} {v : InstrValue} {w : Word}
    (h : Ends c s v (.ok w s1)) (hv : valueOf i = some v) (hm : movesSp i s = true) :
    s1.sp = s.sp - 2 ∨ s1.sp = s.sp + 2 := by
  cases h with
  | push | call => exact .inl rfl
  | pop | ret => exact .inr (by simp)
  | callUntaken hk | retUntaken hk => simp [movesSp, hv, hk] at hm
  | _ => simp [movesSp, hv] at hm

/-- A commit that leaves the machine running is the commit of a handler that returned (R244). -/
theorem commit_running {r : Result Word} {t : State} (h : commit r = .next t) (ht : t.status = .running) :
    ∃ w s1, r = .ok w s1 := by
  cases r with
  | ok w s1 => exact ⟨w, s1, rfl⟩
  | raised cause s1 => cases h; cases ht

/-- Settles O38: the register frame, and the two SP facts, of every way an instruction ends. -/
theorem registersChangeOnlyWhereNamed : Obligations.RegistersChangeOnlyWhereNamed := by
  intro i s t h
  rcases exec_cases h with ⟨v, r, hv, he, hr⟩ | ⟨b, rfl, rfl⟩
  · refine ⟨fun x hx => (commit_getReg hr x).trans (he.getReg hv hx),
      fun hm => (commit_sp hr).trans (he.sp_of_not_movesSp hv hm), fun hm _ ht => ?_⟩
    obtain ⟨w, s1, rfl⟩ := commit_running hr ht
    exact commit_sp hr ▸ he.sp_of_movesSp hv hm
  · exact ⟨fun x _ => getReg_setStatus x _ s, fun _ => rfl, fun hm => by cases hm⟩

end Sys2Proof.Machine

/-! SUPPORT. Noninterference of n and h (O45; R30): running an instruction commutes with putting other flags in F, when the
conditions read the same. -/

namespace Sys2Proof.Machine

/-- The same ending, in a changed state. -/
def Result.mapState {α : Type} (g : State → State) : Result α → Result α
  | .ok x s => .ok x (g s)
  | .raised cause s => .raised cause (g s)

theorem commit_mapState_setFlags {r : Result Word} {t : State} (f : Flags) (h : commit r = .next t) :
    commit (r.mapState (setFlags f)) = .next (setFlags f t) := by
  cases r <;> cases h <;> rfl

/-- A condition reads z and c only (R200). -/
theorem condHolds_congr {f g : Flags} (hz : f.z = g.z) (hc : f.c = g.c) (k : Cond) : condHolds k f = condHolds k g := by
  cases k <;> simp [condHolds, hz, hc]

/-- What commutes with a change of state stays so in sequence. -/
theorem Result.andThen_mapState {α β : Type} {g : State → State} {r' r : Result α} (hr : r' = r.mapState g)
    {k : α → State → Result β} (hk : ∀ x s, k x (g s) = (k x s).mapState g) :
    r'.andThen k = (r.andThen k).mapState g := by
  subst hr
  cases r with
  | ok x s => exact hk x s
  | raised cause s => rfl

theorem memRead_setFlags (c : Config) (a : Word) (f : Flags) (s : State) :
    memRead c a (setFlags f s) = (memRead c a s).mapState (setFlags f) := by
  unfold memRead; split <;> rfl

theorem memWrite_setFlags (c : Config) (a : Word) (v : Byte) (f : Flags) (s : State) :
    memWrite c a v (setFlags f s) = (memWrite c a v s).mapState (setFlags f) := by
  unfold memWrite; split <;> rfl

theorem imm16_setFlags (c : Config) (f : Flags) (s : State) :
    imm16 c (setFlags f s) = (imm16 c s).mapState (setFlags f) :=
  Result.andThen_mapState (memRead_setFlags c _ f s) fun _ s1 =>
    Result.andThen_mapState (memRead_setFlags c _ f s1) fun _ _ => rfl

theorem push16_setFlags (c : Config) (w : Word) (f : Flags) (s : State) :
    push16 c w (setFlags f s) = (push16 c w s).mapState (setFlags f) :=
  Result.andThen_mapState (memWrite_setFlags c _ _ f (setSp (s.sp - 1) s)) fun _ s2 =>
    memWrite_setFlags c _ _ f (setSp (s2.sp - 1) s2)

theorem pop16_setFlags (c : Config) (f : Flags) (s : State) :
    pop16 c (setFlags f s) = (pop16 c s).mapState (setFlags f) :=
  Result.andThen_mapState (memRead_setFlags c _ f s) fun _ s1 =>
    Result.andThen_mapState (memRead_setFlags c _ f (setSp (s1.sp + 1) s1)) fun _ _ => rfl

theorem readPair_setFlags {p : Pair} (hp : p ≠ .af) (f : Flags) (s : State) :
    readPair p (setFlags f s) = readPair p s := by
  cases p with
  | af => exact absurd rfl hp
  | bc | de | hl => rfl

theorem writePair_setFlags {p : Pair} (hp : p ≠ .af) (w : Word) (f : Flags) (s : State) :
    writePair p w (setFlags f s) = setFlags f (writePair p w s) := by
  cases p with
  | af => exact absurd rfl hp
  | bc | de | hl => rfl

theorem setReg_setFlags (r : Reg) (v : Byte) (f : Flags) (s : State) :
    setReg r v (setFlags f s) = setFlags f (setReg r v s) := by
  cases r <;> rfl

theorem readSource_setFlags (c : Config) (src : LoadSource) (f : Flags) (s : State) :
    readSource c src (setFlags f s) = (readSource c src s).mapState (setFlags f) := by
  cases src with
  | reg r => simp [readSource, Result.mapState]
  | hli => exact memRead_setFlags c (readPair .hl s) f s
  | d8 => exact memRead_setFlags c (s.pc + 1) f s

theorem writeTarget_setFlags (c : Config) (t : LoadTarget) (v : Byte) (f : Flags) (s : State) :
    writeTarget c t v (setFlags f s) = (writeTarget c t v s).mapState (setFlags f) := by
  cases t with
  | reg r => simp [writeTarget, Result.mapState, setReg_setFlags]
  | hli => exact memWrite_setFlags c (readPair .hl s) v f s

theorem load_setFlags (c : Config) (t : LoadTarget) (src : LoadSource) (f : Flags) (s : State) :
    load c t src (setFlags f s) = (load c t src s).mapState (setFlags f) :=
  Result.andThen_mapState (readSource_setFlags c src f s) fun x s1 =>
    Result.andThen_mapState (writeTarget_setFlags c t x f s1) fun _ _ => rfl

theorem push_setFlags (c : Config) {p : Pair} (hp : p ≠ .af) (f : Flags) (s : State) :
    push c p (setFlags f s) = (push c p s).mapState (setFlags f) := by
  unfold push
  rw [readPair_setFlags hp]
  exact Result.andThen_mapState (push16_setFlags c _ f s) fun _ _ => rfl

theorem pop_setFlags (c : Config) {p : Pair} (hp : p ≠ .af) (f : Flags) (s : State) :
    pop c p (setFlags f s) = (pop c p s).mapState (setFlags f) :=
  Result.andThen_mapState (pop16_setFlags c f s) fun _ _ => by simp [writePair_setFlags hp, Result.mapState]

section
variable {f : Flags} {s : State} (hf : ∀ k, condHolds k f = condHolds k s.f)
include hf

theorem jump_setFlags (c : Config) (k : Cond) :
    jump c k (setFlags f s) = (jump c k s).mapState (setFlags f) := by
  simp only [jump, setFlags_f, hf k]
  split
  · exact imm16_setFlags c f s
  · rfl

theorem call_setFlags (c : Config) (k : Cond) :
    call c k (setFlags f s) = (call c k s).mapState (setFlags f) := by
  simp only [call, setFlags_f, setFlags_pc, hf k]
  split
  · exact Result.andThen_mapState (push16_setFlags c _ f s) fun _ s1 => imm16_setFlags c f s1
  · rfl

theorem ret_setFlags (c : Config) (k : Cond) :
    ret c k (setFlags f s) = (ret c k s).mapState (setFlags f) := by
  simp only [ret, setFlags_f, hf k]
  split
  · exact pop16_setFlags c f s
  · rfl

/-- A value that writes no flag and is not PUSH AF reads of the flags only the conditions. -/
theorem execute_setFlags (c : Config) {v : InstrValue} (hv : writesFlags v = false) (hpush : v ≠ .push .af) :
    execute c v (setFlags f s) = (execute c v s).mapState (setFlags f) := by
  cases v with
  | nop | halt | multiByteLoad => rfl
  | load t src =>
    simp only [execute]
    split
    · exact load_setFlags c t src f s
    · rfl
  | push p => exact push_setFlags c (fun hp => hpush (congrArg _ hp)) f s
  | pop p => exact pop_setFlags c (by rintro rfl; cases hv) f s
  | add r => cases hv
  | jump k => exact jump_setFlags hf c k
  | call k => exact call_setFlags hf c k
  | ret k => exact ret_setFlags hf c k

end

/-- ADD A,r writes all four flags and reads none (R171). -/
theorem addToA_setFlags (r : Reg) (f : Flags) (s : State) : addToA r (setFlags f s) = addToA r s := by
  cases r <;> rfl

/-- `t'` is `t` but for n and h. -/
def SameButNH (t' t : State) : Prop := { t' with f := t.f } = t ∧ t'.f.z = t.f.z ∧ t'.f.c = t.f.c

theorem sameButNH_setFlags {f : Flags} {s t : State} (hz : f.z = s.f.z) (hc : f.c = s.f.c) (ht : t.f = s.f) :
    SameButNH (setFlags f t) t := ⟨rfl, ht ▸ hz, ht ▸ hc⟩

section
variable {c : Config} {f : Flags} {s t : State} (hz : f.z = s.f.z) (hc : f.c = s.f.c)
include hz hc

/-- POP AF replaces the flags when it returns, and keeps them when it stops (R159, R245). -/
theorem commit_popAF_sameButNH (h : commit (pop c .af s) = .next t) :
    ∃ t', commit (pop c .af (setFlags f s)) = .next t' ∧ SameButNH t' t := by
  unfold pop at h ⊢
  rw [pop16_setFlags]
  rcases pop16_cases c s with ⟨-, hp⟩ | ⟨a, s1, hs, hp⟩ <;> rw [hp] at h ⊢
  · exact ⟨t, h, rfl, rfl, rfl⟩
  · exact ⟨_, commit_mapState_setFlags f h, sameButNH_setFlags hz hc ((commit_f h).trans hs.f)⟩

/-- ADD writes all flags, POP AF is above, and every other value but PUSH AF keeps the flags it is given. -/
theorem commit_execute_sameButNH {v : InstrValue} (hpush : v ≠ .push .af) (h : commit (execute c v s) = .next t) :
    ∃ t', commit (execute c v (setFlags f s)) = .next t' ∧ SameButNH t' t := by
  cases hw : writesFlags v with
  | false =>
    rw [execute_setFlags (condHolds_congr hz hc) c hw hpush]
    exact ⟨_, commit_mapState_setFlags f h,
      sameButNH_setFlags hz hc ((commit_f h).trans ((execute_ends c v s).f hw))⟩
  | true =>
    rcases eq_add_or_popAF_of_writesFlags hw with ⟨r, rfl⟩ | rfl
    · exact ⟨t, (congrArg commit (addToA_setFlags r f s)).trans h, rfl, rfl, rfl⟩
    · exact commit_popAF_sameButNH hz hc h

end

theorem eq_pushAF_of_valueOf {i : Instr} (h : valueOf i = some (.push .af)) : i = .pushAF := by
  cases i <;> cases h
  rfl

/-- Settles O45: n and h are no part of what a condition reads, so `commit_execute_sameButNH` applies to every row with
a value; the row PREFIX reads no flag. -/
theorem subtractAndHalfCarryReachNothingButPushAf : Obligations.SubtractAndHalfCarryReachNothingButPushAf := by
  intro i s t n h hi ht
  cases hv : valueOf i with
  | none =>
    obtain ⟨b, rfl⟩ := eq_prefixOp_of_valueOf_none hv
    cases ht
    exact ⟨_, rfl, rfl, rfl, rfl⟩
  | some v =>
    rw [exec_of_value hv] at ht ⊢
    have hpush : v ≠ .push .af := by rintro rfl; exact hi (eq_pushAF_of_valueOf hv)
    exact commit_execute_sameButNH (f := { s.f with n := n, h := h }) rfl rfl hpush ht

end Sys2Proof.Machine

/-! SUPPORT. The flags byte, the pair views, the store as an array, and reset (O5, O6, O42, O34,
O35; R22 to R29, R37 to R41). -/

namespace Sys2Proof.Machine

/-! ### The flags byte -/

/-- The layout of R23 is a fact about 16 flag values. -/
theorem packFlags_layout (f : Flags) :
    (packFlags f).getLsbD 7 = f.z ∧ (packFlags f).getLsbD 6 = f.n ∧ (packFlags f).getLsbD 5 = f.h ∧
    (packFlags f).getLsbD 4 = f.c ∧ (packFlags f).toNat % 16 = 0 := by
  obtain ⟨z, n, h, c⟩ := f
  revert z n h c
  decide

@[simp] theorem unpackFlags_packFlags (f : Flags) : unpackFlags (packFlags f) = f := by
  obtain ⟨hz, hn, hh, hc, -⟩ := packFlags_layout f
  simp only [unpackFlags, hz, hn, hh, hc]

/-- The law of R25 on bytes is a fact about 256 of them. -/
theorem packFlags_unpackFlags : ∀ v : Byte, packFlags (unpackFlags v) = v &&& 0xF0 := by
  decide

/-- Settles O5: the layout by the 16 flag values, and from it the two round trips. -/
theorem flagsByteLayoutAndRoundTrip : Obligations.FlagsByteLayoutAndRoundTrip :=
  ⟨packFlags_layout, fun _ => rfl, unpackFlags_packFlags, packFlags_unpackFlags⟩

/-! ### The pair views -/

/-- The low nibble of a word is that of its low byte. -/
theorem toNat_concat_mod_16 (h l : Byte) : (concat h l).toNat % 16 = l.toNat % 16 := by
  have hl : l.toNat = (concat h l).toNat % 256 := by
    conv_lhs => rw [← lo8_concat h l]
    simp [lo8]
  omega

/-- Reading a pair other than AF after writing it (R29). -/
theorem readPair_writePair_same {p : Pair} (hp : p ≠ .af) (w : Word) (s : State) : readPair p (writePair p w s) = w := by
  cases p with
  | af => exact absurd rfl hp
  | bc | de | hl => exact concat_hi8_lo8 w

/-- Reading AF after writing it clears the low nibble (R28, R29). -/
theorem readPair_writePair_af (w : Word) (s : State) : readPair .af (writePair .af w s) = w &&& 0xFFF0 := by
  calc readPair .af (writePair .af w s)
      = concat (hi8 w) (packFlags (unpackFlags (lo8 w))) := rfl
    _ = (hi8 w &&& 0xFF) ++ (lo8 w &&& 0xF0) := by
        rw [packFlags_unpackFlags, show hi8 w &&& 0xFF = hi8 w from BitVec.and_allOnes]; rfl
    _ = concat (hi8 w) (lo8 w) &&& ((0xFF : Byte) ++ (0xF0 : Byte)) := BitVec.and_append.symm
    _ = w &&& 0xFFF0 := by rw [concat_hi8_lo8]; rfl

/-- Settles O6: a write is two halves of the word, so reading joins them again; AF goes through the flags byte. -/
theorem pairViewsReadWriteAndRoundTrip : Obligations.PairViewsReadWriteAndRoundTrip := by
  refine ⟨fun s => ⟨rfl, rfl, rfl, rfl, ?_⟩, fun _ _ => ⟨rfl, rfl, rfl, rfl⟩,
    fun _ w s hp => readPair_writePair_same hp w s, readPair_writePair_af⟩
  obtain ⟨-, -, -, -, hlow⟩ := packFlags_layout s.f
  exact (toNat_concat_mod_16 s.a (packFlags s.f)).trans hlow

/-! ### The store -/

/-- What the canonical form says of a store with a first entry (log 15). -/
theorem Memory.wfFrom_cons {size lo k : Nat} {x : Byte} {m : Memory} :
    Memory.wfFrom size lo ((k, x) :: m) = true ↔
      lo ≤ k ∧ k < size ∧ x ≠ unlistedByte ∧ Memory.wfFrom size (k + 1) m = true := by
  simp [Memory.wfFrom, and_assoc]

/-- A first entry is no unlisted byte, and below its addresses a store reads as that byte: so the first address of one
store is not below the addresses of another that reads alike. -/
theorem Memory.le_head_of_read_eq {size lo lo' k : Nat} {x : Byte} {m m' : Memory}
    (hm : Memory.wfFrom size lo ((k, x) :: m) = true) (hm' : Memory.wfFrom size lo' m' = true)
    (h : ∀ a, a < size → Memory.read ((k, x) :: m) a = Memory.read m' a) : lo' ≤ k := by
  obtain ⟨-, hk, hx, -⟩ := Memory.wfFrom_cons.1 hm
  by_contra hlt
  have hread := h k hk
  rw [Memory.read_below hm' (by omega), Memory.read, if_pos rfl] at hread
  exact hx hread

/-- Stores in canonical form that read alike have the same first entry, and rests that read alike. -/
theorem Memory.eq_of_read_eq {size lo : Nat} {m m' : Memory} (hm : Memory.wfFrom size lo m = true)
    (hm' : Memory.wfFrom size lo m' = true) (h : ∀ a, a < size → Memory.read m a = Memory.read m' a) : m = m' := by
  induction m generalizing lo m' with
  | nil =>
    cases m' with
    | nil => rfl
    | cons e' rest' =>
      have hle : e'.1 + 1 ≤ e'.1 := Memory.le_head_of_read_eq hm' rfl fun a ha => (h a ha).symm
      omega
  | cons e rest ih =>
    obtain ⟨k, x⟩ := e
    obtain ⟨-, hk, hx, hr⟩ := Memory.wfFrom_cons.1 hm
    cases m' with
    | nil =>
      have hle : k + 1 ≤ k := Memory.le_head_of_read_eq hm rfl h
      omega
    | cons e' rest' =>
      obtain ⟨k', x'⟩ := e'
      obtain ⟨-, hk', hx', hr'⟩ := Memory.wfFrom_cons.1 hm'
      have hle : k' ≤ k :=
        Memory.le_head_of_read_eq hm (Memory.wfFrom_cons.2 ⟨le_rfl, hk', hx', hr'⟩) h
      have hge : k ≤ k' :=
        Memory.le_head_of_read_eq hm' (Memory.wfFrom_cons.2 ⟨le_rfl, hk, hx, hr⟩) fun a ha => (h a ha).symm
      obtain rfl : k = k' := by omega
      have hxx : x = x' := by simpa [Memory.read] using h k hk
      have hrest : rest = rest' := ih hr hr' fun a ha => by
        by_cases hak : k = a
        · rw [Memory.read_below hr (by omega), Memory.read_below hr' (by omega)]
        · simpa [Memory.read, hak] using h a ha
      rw [hxx, hrest]

/-- Settles O42, by induction on the two stores (`Memory.eq_of_read_eq`). -/
theorem storesThatReadAlikeAreEqual : Obligations.StoresThatReadAlikeAreEqual :=
  fun _ _ _ h₁ h₂ h => Memory.eq_of_read_eq h₁ h₂ h

/-! ### Reset -/

/-- Settles O34: the empty store is canonical, and Running is legal. -/
theorem resetMeetsTheInvariant : Obligations.ResetMeetsTheInvariant := ⟨Memory.wf_nil coreConfig, rfl⟩

/-- The first fetch reads 0x00, which is not 0xCB (R40, R111). -/
theorem fetch_reset : fetch coreConfig State.reset = .ok ⟨byteAt State.reset 0x0000, false⟩ State.reset := by
  decide

/-- Settles O35: every field by its reset value, every byte by the empty store. -/
theorem resetLeavesEverythingZero : Obligations.ResetLeavesEverythingZero := by
  refine ⟨fun r => ?_, rfl, rfl, rfl, rfl, rfl, fetch_reset, fun a => Memory.read_nil a.toNat, rfl⟩
  cases r <;> rfl

end Sys2Proof.Machine

/-! SUPPORT. Memory as an instruction sees it: the two bus primitives, the frame of the store, a store over the next
instruction, and the operand of a JP (O29, O37, O41, O43; R51 to R56, R67). -/

namespace Sys2Proof.Machine

open Sys2Proof.Claim

/-! ### The two bus primitives, in bounds and out of bounds -/

section
variable {c : Config} {a : Word} (s : State)

theorem isOutOfBounds_eq_false_iff : isOutOfBounds c a = false ↔ a.toNat < c.memSize := by
  simp [isOutOfBounds]

theorem isOutOfBounds_eq_true_iff : isOutOfBounds c a = true ↔ c.memSize ≤ a.toNat := by
  simp [isOutOfBounds]

theorem memRead_inBounds (h : isOutOfBounds c a = false) : memRead c a s = .ok (byteAt s a) s := by
  simp [memRead, h]

theorem memRead_outOfBounds (h : isOutOfBounds c a = true) : memRead c a s = .raised (.busFault a .read) s := by
  simp [memRead, h]

theorem memWrite_inBounds (h : isOutOfBounds c a = false) (v : Byte) :
    memWrite c a v s = .ok () (putByte a v s) := by
  simp [memWrite, h]

theorem memWrite_outOfBounds (h : isOutOfBounds c a = true) (v : Byte) :
    memWrite c a v s = .raised (.busFault a .write) s := by
  simp [memWrite, h]

end

/-- Settles O41: the primitives by the bounds check, and the write by the laws of `putByte`. -/
theorem busPrimitivesReadAndWriteOneByte : Obligations.BusPrimitivesReadAndWriteOneByte := by
  intro c a v s
  refine ⟨fun h => memRead_inBounds s (isOutOfBounds_eq_false_iff.2 h),
    fun h => memRead_outOfBounds s (isOutOfBounds_eq_true_iff.2 h),
    fun h => memWrite_outOfBounds s (isOutOfBounds_eq_true_iff.2 h) v, fun h => ?_⟩
  have ha := isOutOfBounds_eq_false_iff.2 h
  refine ⟨putByte a v s, memWrite_inBounds s ha v, ?_, byteAt_putByte_same a v s,
    fun b hb => byteAt_putByte_other hb v s, putByte_frame a v s⟩
  simpa using memRead_inBounds (putByte a v s) ha

/-! ### The frame of the store -/

section
variable {i : Instr} {s : State}

theorem storedAddresses_store {src : LoadSource} (hv : valueOf i = some (.load .hli src)) :
    storedAddresses i s = [readPair .hl s] := by
  simp [storedAddresses, hv]

theorem storedAddresses_push {p : Pair} (hv : valueOf i = some (.push p)) :
    storedAddresses i s = [s.sp - 1, s.sp - 2] := by
  simp [storedAddresses, hv]

theorem storedAddresses_call {k : Cond} (hv : valueOf i = some (.call k)) (hk : condHolds k s.f = true) :
    storedAddresses i s = [s.sp - 1, s.sp - 2] := by
  simp [storedAddresses, hv, hk]

end

section
variable {c : Config} {s s1 : State} {w a x : Word}

theorem byteAt_pushed_other (ha : a ∉ [s.sp - 1, s.sp - 2]) : byteAt (pushed w s) a = byteAt s a := by
  obtain ⟨h1, h2⟩ : a ≠ s.sp - 1 ∧ a ≠ s.sp - 2 := by simpa using ha
  rw [byteAt_pushed, if_neg h2, if_neg h1]

/-- A push that stops has written at SP-1 at most (R245). -/
theorem PushStop.byteAt_other (h : PushStop c w s x s1) (ha : a ∉ [s.sp - 1, s.sp - 2]) :
    byteAt s1 a = byteAt s a := by
  cases h with
  | first => rfl
  | second => exact byteAt_putByte_other (List.ne_of_not_mem_cons ha) (hi8 w) s

theorem PopStop.byteAt_eq (h : PopStop c s x s1) : byteAt s1 a = byteAt s a := by
  cases h <;> rfl

/-- An instruction leaves every byte outside its `storedAddresses`, stopped or not (R51, R53, R55). -/
theorem Ends.byteAt_of_not_stored {i : Instr} {v : InstrValue} {r : Result Word} (h : Ends c s v r)
    (hv : valueOf i = some v) (ha : a ∉ storedAddresses i s) : byteAt r.state a = byteAt s a := by
  cases h with
  | loadMem =>
    rw [storedAddresses_store hv, List.mem_singleton] at ha
    exact byteAt_putByte_other ha _ s
  | push => exact byteAt_pushed_other (storedAddresses_push hv ▸ ha)
  | pushStop hp => exact hp.byteAt_other (storedAddresses_push hv ▸ ha)
  | call hk | callOperandStop hk => exact byteAt_pushed_other (storedAddresses_call hv hk ▸ ha)
  | callPushStop hk hp => exact hp.byteAt_other (storedAddresses_call hv hk ▸ ha)
  | popStop hp | retStop _ hp => exact hp.byteAt_eq
  | _ => simp

end

theorem commit_byteAt {r : Result Word} {t : State} (h : commit r = .next t) (a : Word) :
    byteAt t a = byteAt r.state a := by
  obtain ⟨w, st, rfl⟩ := commit_frame h; rfl

/-- Settles O37: the frame of the store, of every way an instruction ends. -/
theorem memoryChangesOnlyWhereTheInstructionStores : Obligations.MemoryChangesOnlyWhereTheInstructionStores := by
  intro i s t h a ha
  rcases exec_cases h with ⟨v, r, hv, he, hr⟩ | ⟨b, rfl, rfl⟩
  · exact (commit_byteAt hr a).trans (he.byteAt_of_not_stored hv ha)
  · rfl

/-! ### The fetch of an opcode byte other than 0xCB -/

/-- R111, R113: the byte at PC, when it exists and is not 0xCB. -/
theorem fetch_unprefixed {s : State} (hpc : s.pc ≠ 0xFFFF) (hb : byteAt s s.pc ≠ 0xCB) :
    fetch coreConfig s = .ok ⟨byteAt s s.pc, false⟩ s := by
  rw [fetch_eq, inBounds_core hpc, if_neg Bool.false_ne_true, coreConfig_prefixByte, if_neg hb]

/-- A running machine runs the row of the opcode byte at PC (R110 to R115). -/
theorem step_of_decodeOpcode {s : State} {i : Instr} (hs : s.status = .running) (hpc : s.pc ≠ 0xFFFF)
    (hb : byteAt s s.pc ≠ 0xCB) (hi : decodeOpcode (byteAt s s.pc) = some i) : step s = exec i s := by
  have hf : fetchInstr coreConfig s = .ok i s := by
    simp [fetchInstr, fetch_unprefixed hpc hb, decodeFetched, hi]
  simp [step_running hs, hf]

/-! ### A store over the next instruction -/

theorem valueOf_storeRows : ∀ x ∈ storeRows, valueOf x.1 = some (.load .hli (.reg x.2)) := by
  decide

/-- What LD (HL),r leaves when HL is a valid address (R133). -/
theorem exec_store {i : Instr} {r : Reg} (hv : valueOf i = some (.load .hli (.reg r))) {s : State} {a : Word}
    (hl : readPair .hl s = a) (ha : a ≠ 0xFFFF) :
    exec i s = .next (setPc (s.pc + 1) (putByte a (getReg r s) s)) := by
  subst hl
  rw [exec_of_value hv, execute_load (hasLoadHandler_of_wellFormed coreConfig rfl)]
  simp [load, readSource, writeTarget, loadLength, memWrite_inBounds s (inBounds_core ha)]

/-- Settles O43: the state a store leaves has PC at the byte stored, which the fetch reads. -/
theorem storeIsSeenByTheNextFetch : Obligations.StoreIsSeenByTheNextFetch := by
  intro x hx s hhl hpc hb
  let t := setPc (s.pc + 1) (putByte (s.pc + 1) (getReg x.2 s) s)
  have hbyte : byteAt t t.pc = getReg x.2 s := byteAt_putByte_same (s.pc + 1) (getReg x.2 s) s
  exact ⟨t, exec_store (valueOf_storeRows x hx) hhl hpc, rfl, hbyte ▸ fetch_unprefixed hpc (hbyte ▸ hb)⟩

/-! ### The operand of an assembled JP -/

/-- The operand of a JP or CALL, when both of its bytes exist (R201). -/
theorem imm16_core {s : State} (h1 : s.pc + 1 ≠ 0xFFFF) (h2 : s.pc + 2 ≠ 0xFFFF) :
    imm16 coreConfig s = .ok (concat (byteAt s (s.pc + 2)) (byteAt s (s.pc + 1))) s := by
  rw [imm16_eq, inBounds_core h1, inBounds_core h2, if_neg Bool.false_ne_true, if_neg Bool.false_ne_true]

/-- Where a JP goes when its operand exists (R202). -/
theorem exec_jump {i : Instr} {k : Cond} (hv : valueOf i = some (.jump k)) {s : State} {w : Word}
    (hw : imm16 coreConfig s = .ok w s) :
    exec i s = .next (setPc (if condHolds k s.f then w else s.pc + 3) s) := by
  rw [exec_of_value hv, execute, jump, hw]
  split <;> rfl

/-- The format of the five JP: one opcode byte, which the decoder gives back and which is not 0xCB, and an operand
(R86, R87, R88). -/
theorem jumpRows_format : ∀ x ∈ jumpRows, valueOf x.1 = some (.jump x.2) ∧ lengthOf x.1 = 3 ∧
    ∃ op ∈ encodeValue (.jump x.2), encode x.1 = [op] ∧ op ≠ 0xCB ∧ decodeOpcode op = some x.1 := by
  decide

/-- Settles O29: the step fetches the JP from its opcode byte, and its operand bytes join to the word they were cut
from. -/
theorem assembledJumpGoesToItsOperand : Obligations.AssembledJumpGoesToItsOperand := by
  intro x hx s a16 hs hpc hbytes
  obtain ⟨hv, hlen, op, -, henc, hop, hdec⟩ := jumpRows_format x hx
  obtain ⟨h0, h1, h2⟩ : byteAt s s.pc = op ∧ byteAt s (s.pc + 1) = lo8 a16 ∧ byteAt s (s.pc + 2) = hi8 a16 := by
    simpa [assemble, operandBytes, henc, hlen] using hbytes
  subst h0
  have hw : imm16 coreConfig s = .ok a16 s := by
    rw [imm16_core (by bv_omega) (by bv_omega), h1, h2, concat_hi8_lo8]
  rw [step_of_decodeOpcode hs (by bv_omega) hop hdec, exec_jump hv hw]
  rfl

end Sys2Proof.Machine

/-! SUPPORT. The encoding: the opcode table and the format tables agree, what decodes is an encoding, and the bytes
outside the table (O1, O2, O3, O26; R80 to R92, R113). -/

namespace Sys2Proof.Machine

/-! ### The table of R89 against the formats of R82 to R87 -/

/-- The encoding of a row with an instruction value is one byte, at which the table has that row. -/
theorem encode_of_valueOf {i : Instr} {v : InstrValue} (hv : valueOf i = some v) :
    ∃ op, encode i = [op] ∧ decodeOpcode op = some i := by
  cases i <;> cases hv <;> exact ⟨_, rfl, rfl⟩

/-- An entry of the table is encoded as the byte it stands at: a fact about 256 bytes. -/
theorem encode_of_decodeOpcode : ∀ b : Byte, ∀ i ∈ decodeOpcode b, encode i = [b] := by
  decide

/-- 0xCB has no entry in the unprefixed table (R92). -/
theorem ne_prefix_of_decodeOpcode {b : Byte} {i : Instr} (h : decodeOpcode b = some i) : b ≠ 0xCB := by
  rintro rfl
  cases h

/-! ### Decoding a list of bytes -/

theorem decodeBytes_prefix (b : Byte) (rest : List Byte) : decodeBytes (0xCB :: b :: rest) = .ok (.prefixOp b) rest :=
  rfl

theorem decodeBytes_opcode {b : Byte} {i : Instr} (h : decodeOpcode b = some i) (rest : List Byte) :
    decodeBytes (b :: rest) = .ok i rest := by
  simp only [decodeBytes, coreConfig_prefixByte, if_neg (ne_prefix_of_decodeOpcode h), h]

/-- What decodes is 0xCB and a second byte, or a byte of the table (R113). -/
theorem decodeBytes_cases {bytes rest : List Byte} {i : Instr} (h : decodeBytes bytes = .ok i rest) :
    (∃ b, bytes = 0xCB :: b :: rest ∧ i = .prefixOp b) ∨ (∃ b, bytes = b :: rest ∧ decodeOpcode b = some i) := by
  unfold decodeBytes at h
  split at h
  · cases h
  · split at h
    · next hb =>
      split at h <;> cases h
      exact .inl ⟨_, by rw [hb, coreConfig_prefixByte], rfl⟩
    · split at h <;> cases h
      next hd => exact .inr ⟨_, rfl, hd⟩

/-- The decoder inverts the encoder, whatever bytes follow: an `iff`, so neither drops a byte (R80, R89). -/
theorem decodeBytes_eq_ok_iff {bytes rest : List Byte} {i : Instr} :
    decodeBytes bytes = .ok i rest ↔ bytes = encode i ++ rest := by
  constructor
  · intro h
    rcases decodeBytes_cases h with ⟨b, rfl, rfl⟩ | ⟨b, rfl, hd⟩
    · rfl
    · rw [encode_of_decodeOpcode b i hd]; rfl
  · rintro rfl
    cases hv : valueOf i with
    | none => obtain ⟨b, rfl⟩ := eq_prefixOp_of_valueOf_none hv; exact decodeBytes_prefix b rest
    | some v => obtain ⟨op, henc, hd⟩ := encode_of_valueOf hv; rw [henc]; exact decodeBytes_opcode hd rest

/-- Settles O2: both directions are `decodeBytes_eq_ok_iff`; the operand bytes are among the bytes after the opcode. -/
theorem decodingAndEncodingAgree : Obligations.DecodingAndEncodingAgree :=
  ⟨fun i a16 rest _ => decodeBytes_eq_ok_iff.2 (List.append_assoc (encode i) (operandBytes i a16) rest),
    fun _ _ _ => decodeBytes_eq_ok_iff.1⟩

/-- Settles O1: thirteen closed words, evaluated. -/
theorem sampleWordsDecodeToTheirInstructions : Obligations.SampleWordsDecodeToTheirInstructions := by
  unfold Obligations.SampleWordsDecodeToTheirInstructions
  decide

/-! ### The bytes outside the table -/

/-- A byte listed in R90 has no entry: a fact about 256 bytes. -/
theorem decodeOpcode_none_of_unrecognizedByte : ∀ b : Byte, unrecognizedByte b = true → decodeOpcode b = none := by
  decide

theorem ne_prefix_of_unrecognizedByte {b : Byte} (h : unrecognizedByte b = true) : b ≠ 0xCB := by
  rintro rfl
  cases h

theorem decodeOpcode_eq_none_iff {b : Byte} : decodeOpcode b = none ↔ b = 0xCB ∨ unrecognizedByte b = true := by
  constructor
  · intro h
    by_cases hb : b = 0xCB
    · exact .inl hb
    · exact .inr (unrecognizedByte_of_decodeOpcode_none b h hb)
  · rintro (rfl | hb)
    · rfl
    · exact decodeOpcode_none_of_unrecognizedByte b hb

/-- Every entry of the table has an instruction value: the row PREFIX takes two bytes, and an entry one. -/
theorem decode_unprefixed_eq_none_iff {b : Byte} : decode b false = none ↔ decodeOpcode b = none := by
  cases hd : decodeOpcode b with
  | none => simp [decode, hd]
  | some i =>
    have hv : valueOf i ≠ none := by
      intro hv
      obtain ⟨c, rfl⟩ := eq_prefixOp_of_valueOf_none hv
      cases encode_of_decodeOpcode b _ hd
    simp [decode, hd, hv]

/-- The bytes of R90 are counted in two halves, each short enough to evaluate. -/
theorem length_unrecognizedBytes :
    ((List.range 256).filter fun n => unrecognizedByte (BitVec.ofNat 8 n)).length = 160 := by
  rw [show 256 = 128 + 128 from rfl, List.range_add, List.filter_append, List.length_append]
  rfl

/-- A running machine whose fetch or decode raises takes that fatal condition (R114, R241, R244). -/
theorem step_of_fetchInstr_raised {s : State} {cause : Fault} (hs : s.status = .running)
    (h : fetchInstr coreConfig s = .raised cause s) : step s = .next (takeFatal cause s) := by
  simp [step_running hs, h]

/-- Settles O3: the table is empty exactly at these bytes, so decode raises before any instruction runs. -/
theorem everyOtherByteIsUnrecognized : Obligations.EveryOtherByteIsUnrecognized := by
  refine ⟨fun b => decode_unprefixed_eq_none_iff.trans decodeOpcode_eq_none_iff, length_unrecognizedBytes,
    fun s hs hpc hb => step_of_fetchInstr_raised hs ?_⟩
  have hd := decodeOpcode_none_of_unrecognizedByte _ hb
  simp [fetchInstr, fetch_unprefixed hpc (ne_prefix_of_unrecognizedByte hb), decodeFetched, hd]

/-! ### The row PREFIX -/

section
variable {s : State} (hs : s.status = .running) (hb : byteAt s s.pc = 0xCB)
include hs hb

/-- 0xCB with a byte after it: the step runs the row PREFIX (R91, R113). -/
theorem step_prefixed (hpc : s.pc ≠ 0xFFFF) (hpc' : s.pc ≠ 0xFFFE) :
    step s = .next (takeFatal (.unrecognizedOpcode (byteAt s (s.pc + 1)) true) s) := by
  have hf : fetch coreConfig s = .ok ⟨byteAt s (s.pc + 1), true⟩ s := by
    rw [fetch_eq, inBounds_core hpc, if_neg Bool.false_ne_true, coreConfig_prefixByte, if_pos hb,
      inBounds_core (show s.pc + 1 ≠ 0xFFFF by bv_omega), if_neg Bool.false_ne_true]
  have hi : fetchInstr coreConfig s = .ok (.prefixOp (byteAt s (s.pc + 1))) s := by
    simp [fetchInstr, hf, decodeFetched]
  simp [step_running hs, hi]

/-- 0xCB at the last address: its second byte does not exist (R50, R113). -/
theorem step_prefix_at_top (hpc : s.pc = 0xFFFE) : step s = .next (takeFatal (.busFault 0xFFFF .read) s) := by
  have hnext : s.pc + 1 = 0xFFFF := by rw [hpc]; rfl
  have hf : fetch coreConfig s = .raised (.busFault 0xFFFF .read) s := by
    rw [fetch_eq, inBounds_core (show s.pc ≠ 0xFFFF by bv_omega), if_neg Bool.false_ne_true, coreConfig_prefixByte,
      if_pos hb, hnext, if_pos outOfBounds_top]
  exact step_of_fetchInstr_raised hs (by simp [fetchInstr, hf])

end

/-- Settles O26: the fetch reads a second byte exactly behind 0xCB, and the row PREFIX raises on any byte. -/
theorem prefixedOpcodesAreAllUnrecognized : Obligations.PrefixedOpcodesAreAllUnrecognized :=
  ⟨fun _ => rfl, exec_prefixOp,
    fun _ hs hpc hb => ⟨step_prefixed hs hb hpc, step_prefix_at_top hs hb⟩,
    fun _ hpc hb => fetch_unprefixed hpc hb⟩

end Sys2Proof.Machine

/-! SUPPORT. The step: how a run ends, what the fetch answers, the decoder's values, and the step as one piece of
pseudocode (O4, O27, O28, O30, O31, O32, O46; R110 to R120, R244, R248). -/

namespace Sys2Proof.Machine

/-! ### A run of the machine -/

theorem run_succ_of_step {n : Nat} {s t : State} (h : step s = .next t) :
    Sys2Proof.core.run (n + 1) s = Sys2Proof.core.run n t := by
  simp only [Host.Core.run, Host.Check.core_step, h]

theorem run_of_faulted {s : State} {cause : Fault} (h : s.status = .faulted cause) (n : Nat) :
    Sys2Proof.core.run n s = .next s := by
  induction n with
  | zero => rfl
  | succ n ih => exact (run_succ_of_step (step_faulted h)).trans ih

/-- Settles O30: a Faulted machine steps to itself, and by induction runs to itself. -/
theorem faultedMachineStaysAsItIs : Obligations.FaultedMachineStaysAsItIs :=
  fun _ _ h => ⟨step_faulted h, run_of_faulted h⟩

/-- A step ends in a next state in each of its cases (R118, R244). -/
theorem step_next (s : State) : ∃ t, step s = .next t := by
  rcases step_cases s with ⟨_, -, h⟩ | ⟨cause, -, -, h⟩ | ⟨i, -, -, h⟩
  · exact ⟨s, h⟩
  · exact ⟨takeFatal cause s, h⟩
  · exact h ▸ exec_next i s

/-- Settles O32: a next state in every case of a step, and in every arm of `exec`. -/
theorem everyStepAnswersANextState : Obligations.EveryStepAnswersANextState := ⟨step_next, exec_next⟩

theorem run_next (n : Nat) (s : State) : ∃ t, Sys2Proof.core.run n s = .next t := by
  induction n generalizing s with
  | zero => exact ⟨s, rfl⟩
  | succ n ih =>
    obtain ⟨u, hu⟩ := step_next s
    exact run_succ_of_step hu ▸ ih u

theorem isRunning_of_running {s : State} (h : s.status = .running) : isRunning s = true := by
  simp [isRunning, h]

theorem isRunning_of_faulted {s : State} {cause : Fault} (h : s.status = .faulted cause) : isRunning s = false := by
  simp [isRunning, h]

theorem safeFor_succ_of_step {n : Nat} {s t : State} (h : step s = .next t) :
    safeFor (n + 1) s = (isRunning s && safeFor n t) := by
  simp only [safeFor, h]

/-- Nothing leaves a fatal condition (R248), so a run met none exactly when its last state is Running. -/
theorem safeFor_eq_isRunning {n : Nat} {s t : State} (h : Sys2Proof.core.run n s = .next t) :
    safeFor n s = isRunning t := by
  induction n generalizing s with
  | zero => cases h; rfl
  | succ n ih =>
    obtain ⟨u, hu⟩ := step_next s
    rw [safeFor_succ_of_step hu]
    cases hs : s.status with
    | running => rw [isRunning_of_running hs, Bool.true_and, ih (run_succ_of_step hu ▸ h)]
    | faulted cause =>
      cases (run_of_faulted hs (n + 1)).symm.trans h
      rw [isRunning_of_faulted hs, Bool.false_and]

/-- Settles O46: a run has one last state, and the two ends of R120 are the two values its status can have. -/
theorem runsEndInOneOfTwoWays : Obligations.RunsEndInOneOfTwoWays := by
  intro n s _
  constructor
  · obtain ⟨t, ht⟩ := run_next n s
    cases hst : t.status with
    | running => exact .inl ⟨t, (safeFor_eq_isRunning ht).trans (isRunning_of_running hst), ht⟩
    | faulted cause => exact .inr ⟨cause, t, ht, hst⟩
  · rintro ⟨⟨_, hsafe, -⟩, _, t, ht, hst⟩
    have hunsafe : safeFor n s = false := (safeFor_eq_isRunning ht).trans (isRunning_of_faulted hst)
    exact Bool.false_ne_true (hunsafe.symm.trans hsafe)

/-! ### The fetch, and the step on bytes that decode -/

/-- The byte at PC does not exist (R50, R111). -/
theorem fetch_at_top {s : State} (hpc : s.pc = 0xFFFF) :
    fetch coreConfig s = .raised (.busFault 0xFFFF .read) s := by
  rw [fetch_eq, hpc, if_pos outOfBounds_top]

/-- Settles O27: what a raised fetch raises the step takes. -/
theorem fetchReadsTheByteAtPc : Obligations.FetchReadsTheByteAtPc :=
  ⟨fun _ hpc => fetch_at_top hpc,
    fun _ hs hpc => step_of_fetchInstr_raised hs (by simp [fetchInstr, fetch_at_top hpc]),
    fun _ hpc hb => fetch_unprefixed hpc hb⟩

/-- Settles O28: what decodes is 0xCB and a second byte or one byte of the table, which the fetch reads alike. -/
theorem stepRunsTheDecodedInstruction : Obligations.StepRunsTheDecodedInstruction := by
  intro s i rest hs hpc hpre _ hdec
  rcases decodeBytes_cases hdec with ⟨b, hbytes, rfl⟩ | ⟨b, hbytes, hd⟩
  · obtain ⟨hb, rfl, -⟩ := List.cons_eq_cons.1 hbytes |>.imp_right List.cons_eq_cons.1
    exact step_prefixed hs hb hpc (hpre hb)
  · obtain ⟨rfl, -⟩ := List.cons_eq_cons.1 hbytes
    exact step_of_decodeOpcode hs hpc (ne_prefix_of_decodeOpcode hd) hd

/-! ### What the decoder yields -/

theorem decode_unprefixed_eq_some_iff {b : Byte} {v : InstrValue} :
    decode b false = some v ↔ ∃ i, decodeOpcode b = some i ∧ valueOf i = some v :=
  Option.bind_eq_some_iff

theorem wellFormed_of_decode {b : Byte} {v : InstrValue} (h : decode b false = some v) : v.wellFormed = true := by
  obtain ⟨i, -, hv⟩ := decode_unprefixed_eq_some_iff.1 h
  exact wellFormed_of_valueOf hv

/-- The encoding of a row is the byte of its instruction value. -/
theorem encodeValue_of_encode {i : Instr} {v : InstrValue} {b : Byte} (hv : valueOf i = some v) (h : encode i = [b]) :
    encodeValue v = some b := by
  cases i <;> cases hv <;> cases h <;> rfl

/-- A value comes only from the byte the format tables give it. -/
theorem encodeValue_of_decode {b : Byte} {v : InstrValue} (h : decode b false = some v) : encodeValue v = some b := by
  obtain ⟨i, hd, hv⟩ := decode_unprefixed_eq_some_iff.1 h
  exact encodeValue_of_encode hv (encode_of_decodeOpcode b i hd)

/-- The loads of the format table: eight targets by eight sources, without the pair of HALT (R83, R136). -/
theorem decode_encodeValue_load {t : LoadTarget} {src : LoadSource} (h : (InstrValue.load t src).wellFormed = true) :
    ∃ b, encodeValue (.load t src) = some b ∧ decode b false = some (.load t src) := by
  cases t with
  | reg r =>
    cases src with
    | reg r' => cases r <;> cases r' <;> exact ⟨_, rfl, rfl⟩
    | hli => cases r <;> exact ⟨_, rfl, rfl⟩
    | d8 => cases h
  | hli =>
    cases src with
    | reg r => cases r <;> exact ⟨_, rfl, rfl⟩
    | hli | d8 => cases h

/-- Every well-formed value has an opcode byte, which decodes to it. -/
theorem decode_encodeValue {v : InstrValue} (h : v.wellFormed = true) :
    ∃ b, encodeValue v = some b ∧ decode b false = some v := by
  cases v with
  | nop | halt => exact ⟨_, rfl, rfl⟩
  | load t src => exact decode_encodeValue_load h
  | push p | pop p => cases p <;> exact ⟨_, rfl, rfl⟩
  | add r => cases r <;> exact ⟨_, rfl, rfl⟩
  | jump k | call k | ret k => cases k <;> exact ⟨_, rfl, rfl⟩
  | multiByteLoad => cases h

theorem wellFormed_iff_exists_decode {v : InstrValue} : v.wellFormed = true ↔ ∃ b : Byte, decode b false = some v :=
  ⟨fun h => (decode_encodeValue h).imp fun _ => And.right, fun ⟨_, h⟩ => wellFormed_of_decode h⟩

/-- Settles O4: the listed bytes are evaluated, 63 loads and 32 others; that no value is left out and no byte added is
`wellFormed_iff_exists_decode` and `encodeValue_of_decode`. -/
theorem decoderYieldsTheListedInstructionValues : Obligations.DecoderYieldsTheListedInstructionValues := by
  refine ⟨by decide, ?_⟩
  iterate 32 refine ⟨rfl, ?_⟩
  exact ⟨fun _ => wellFormed_iff_exists_decode, fun _ _ => encodeValue_of_decode⟩

/-! ### The step as one piece of pseudocode -/

theorem Result.andThen_assoc {α β γ : Type} (r : Result α) (k : α → State → Result β) (k' : β → State → Result γ) :
    (r.andThen k).andThen k' = r.andThen fun x s => (k x s).andThen k' := by
  cases r <;> rfl

theorem Result.andThen_congr {α β : Type} (r : Result α) {k k' : α → State → Result β} (h : ∀ x s, k x s = k' x s) :
    r.andThen k = r.andThen k' :=
  congrArg r.andThen (funext₂ h)

/-- Every entry of the table has an instruction value. -/
theorem decode_of_decodeOpcode {b : Byte} {i : Instr} (hd : decodeOpcode b = some i) :
    ∃ v, valueOf i = some v ∧ decode b false = some v := by
  have hdec : decode b false ≠ none := by simp [decode_unprefixed_eq_none_iff, hd]
  obtain ⟨v, hv⟩ := Option.ne_none_iff_exists'.1 hdec
  exact ⟨v, by simpa [decode, hd] using hv, hv⟩

/-- Running the row of a fetched opcode is committing the value it decodes to, or the fatal condition (R113 to R116). -/
theorem step_eq_commit_stepBody {s : State} (hs : s.status = .running) : step s = commit (stepBody coreConfig s) := by
  rw [step_running hs, fetchInstr, stepBody]
  cases fetch coreConfig s with
  | raised cause s1 => rfl
  | ok x s1 =>
    obtain ⟨b, prefixed⟩ := x
    cases prefixed with
    | true => rfl
    | false =>
      cases hd : decodeOpcode b with
      | none => simp [decodeFetched, decode, hd, unrecognized]
      | some i =>
        obtain ⟨v, hv, hdec⟩ := decode_of_decodeOpcode hd
        simp [decodeFetched, hd, hdec, exec_of_value hv]

/-- Settles O31: after `step_eq_commit_stepBody`, the pseudocode differs from `stepBody` in the nesting of its lines. -/
theorem stepIsThePseudocodeOfTheSpec : Obligations.StepIsThePseudocodeOfTheSpec := by
  intro s
  cases hs : s.status with
  | faulted cause => exact step_faulted hs
  | running =>
    rw [step_eq_commit_stepBody hs, stepBody, fetch, Result.andThen_assoc]
    refine congrArg commit (Result.andThen_congr _ fun b0 s1 => ?_)
    by_cases hb : b0 = 0xCB
    · rw [coreConfig_prefixByte, if_pos hb, if_pos hb, Result.andThen_assoc, Result.andThen_assoc]
      rfl
    · rw [coreConfig_prefixByte, if_neg hb, if_neg hb]
      rfl

end Sys2Proof.Machine

/-! SUPPORT. The byte loads (O10, O11, O12, O13, O14; R130 to R137): what the handler answers once its source is read,
and from it each row and the loads without an opcode. -/

namespace Sys2Proof.Machine

open Sys2Proof.Claim

/-! ### The handler of a byte load -/

section
variable {c : Config} {src : LoadSource} {s : State} {x : Byte}

theorem readSource_hli_inBounds (h : isOutOfBounds c (readPair .hl s) = false) :
    readSource c .hli s = .ok (byteAt s (readPair .hl s)) s :=
  memRead_inBounds s h

theorem readSource_hli_outOfBounds (h : isOutOfBounds c (readPair .hl s) = true) :
    readSource c .hli s = .raised (.busFault (readPair .hl s) .read) s :=
  memRead_outOfBounds s h

theorem readSource_d8_inBounds (h : isOutOfBounds c (s.pc + 1) = false) :
    readSource c .d8 s = .ok (byteAt s (s.pc + 1)) s :=
  memRead_inBounds s h

theorem readSource_d8_outOfBounds (h : isOutOfBounds c (s.pc + 1) = true) :
    readSource c .d8 s = .raised (.busFault (s.pc + 1) .read) s :=
  memRead_outOfBounds s h

/-- A load whose source cannot be read writes nothing (R9, R130). -/
theorem load_of_source_raised {cause : Fault} (h : readSource c src s = .raised cause s) (t : LoadTarget) :
    load c t src s = .raised cause s := by
  simp [load, h]

theorem load_reg_of_source (h : readSource c src s = .ok x s) (r : Reg) :
    load c (.reg r) src s = .ok (s.pc + loadLength src) (setReg r x s) := by
  simp [load_reg_eq, h]

theorem load_hli_of_source (h : readSource c src s = .ok x s) (hl : isOutOfBounds c (readPair .hl s) = false) :
    load c .hli src s = .ok (s.pc + loadLength src) (putByte (readPair .hl s) x s) := by
  simp [load, h, writeTarget, memWrite_inBounds s hl]

theorem load_hli_outOfBounds (h : readSource c src s = .ok x s) (hl : isOutOfBounds c (readPair .hl s) = true) :
    load c .hli src s = .raised (.busFault (readPair .hl s) .write) s := by
  simp [load, h, writeTarget, memWrite_outOfBounds s hl]

end

/-- Every load row commits the handler of R130. -/
theorem exec_load {i : Instr} {t : LoadTarget} {src : LoadSource} (hv : valueOf i = some (.load t src)) (s : State) :
    exec i s = commit (load coreConfig t src s) := by
  rw [exec_of_value hv, execute_load (hasLoadHandler_of_wellFormed coreConfig (wellFormed_of_valueOf hv))]

/-! ### The rows -/

section
variable {op : Byte} {i : Instr} {r : Reg}

/-- A row of R131, from its byte and its value. -/
theorem regLoad_of_value {r' : Reg} {result : State → State} (hd : decodeOpcode op = some i)
    (hv : valueOf i = some (.load (.reg r) (.reg r'))) (hr : ∀ s, result s = setReg r (getReg r' s) s) :
    RegLoad op i result := by
  refine ⟨hd, fun s => ?_⟩
  rw [exec_load hv, load_reg_of_source (x := getReg r' s) rfl, hr]
  rfl

/-- A row of R132, from its byte and its value. -/
theorem hlLoad_of_value {result : State → Byte → State} (hd : decodeOpcode op = some i)
    (hv : valueOf i = some (.load (.reg r) .hli)) (hr : ∀ s x, result s x = setReg r x s) : HlLoad op i result := by
  refine ⟨hd, fun s => ⟨fun h => ?_, fun h => ?_⟩⟩
  · rw [exec_load hv, load_reg_of_source (readSource_hli_inBounds (inBounds_core h)), hr]
    rfl
  · rw [exec_load hv, load_of_source_raised (readSource_hli_outOfBounds (h ▸ outOfBounds_top)), h]
    rfl

/-- A row of R133, from its byte and its value. -/
theorem storeRow_of_value {value : State → Byte} (hd : decodeOpcode op = some i)
    (hv : valueOf i = some (.load .hli (.reg r))) (hr : ∀ s, value s = getReg r s) : StoreRow op i value := by
  refine ⟨hd, fun s => ⟨fun h => ?_, fun h => ?_⟩⟩
  · refine ⟨_, exec_store hv rfl h, ?_, fun a ha => byteAt_putByte_other ha _ s, rfl⟩
    rw [hr]
    exact byteAt_putByte_same _ _ s
  · rw [exec_load hv, load_hli_outOfBounds (x := getReg r s) rfl (h ▸ outOfBounds_top), h]
    rfl

end

/-- Settles O10: each row by its byte, its value and the register it writes. -/
theorem registerLoadsCopyTheSource : Obligations.RegisterLoadsCopyTheSource := by
  iterate 48 refine ⟨regLoad_of_value rfl rfl fun _ => rfl, ?_⟩
  exact regLoad_of_value rfl rfl fun _ => rfl

/-- Settles O11: each row by its byte, its value and the register it writes. -/
theorem loadsThroughHlReadMemory : Obligations.LoadsThroughHlReadMemory := by
  iterate 6 refine ⟨hlLoad_of_value rfl rfl fun _ _ => rfl, ?_⟩
  exact hlLoad_of_value rfl rfl fun _ _ => rfl

/-- Settles O12: each row by its byte, its value and the register it stores. -/
theorem storesThroughHlWriteOneByte : Obligations.StoresThroughHlWriteOneByte := by
  iterate 6 refine ⟨storeRow_of_value rfl rfl fun _ => rfl, ?_⟩
  exact storeRow_of_value rfl rfl fun _ => rfl

/-! ### The frame of a load -/

theorem wellFormed_load_d8 (t : LoadTarget) : (InstrValue.load t .d8).wellFormed = false := by
  cases t <;> rfl

/-- The loads of two bytes have no opcode (R135, R136). -/
theorem loadLength_of_wellFormed {t : LoadTarget} {src : LoadSource} (h : (InstrValue.load t src).wellFormed = true) :
    loadLength src = 1 := by
  cases src with
  | reg | hli => rfl
  | d8 => simp [wellFormed_load_d8] at h

/-- A load that returns goes on past its own bytes (R130). -/
theorem Ends.load_next {c : Config} {s s1 : State} {t : LoadTarget} {src : LoadSource} {w : Word}
    (h : Ends c s (.load t src) (.ok w s1)) : w = s.pc + loadLength src := by
  cases h <;> rfl

section
variable {i : Instr} {t : LoadTarget} {src : LoadSource} (hv : valueOf i = some (.load t src))
include hv

theorem writesReg_load {r : Reg} (h : t ≠ .reg r) : writesReg i r = false := by
  cases t with
  | reg r' => simpa [writesReg, hv] using h.symm
  | hli => simp [writesReg, hv]

theorem not_mem_storedAddresses_load {s : State} {a : Word} (h : t = .hli → a ≠ readPair .hl s) :
    a ∉ storedAddresses i s := by
  cases t with
  | reg r => simp [storedAddresses, hv]
  | hli => simpa [storedAddresses_store hv] using h rfl

end

/-- Settles O13: the frames of `Ends` for a value that is a load; a machine still running has committed PC. -/
theorem decodableLoadsChangeOneThing : Obligations.DecodableLoadsChangeOneThing := by
  intro i t src s u hv h hst
  have he := execute_ends coreConfig (.load t src) s
  have hr := (exec_of_value hv s).symm.trans h
  refine ⟨(commit_f hr).trans (he.f rfl), (commit_sp hr).trans (he.sp_of_not_movesSp hv (by simp [movesSp, hv])),
    fun hs => ?_, fun r hne => (commit_getReg hr r).trans (he.getReg hv (writesReg_load hv hne)),
    fun a ha => (commit_byteAt hr a).trans (he.byteAt_of_not_stored hv (not_mem_storedAddresses_load hv ha))⟩
  obtain ⟨w, s1, hok⟩ := commit_running hr (hst.trans hs)
  rw [hok] at he hr
  cases hr
  rw [setPc_pc, he.load_next, loadLength_of_wellFormed (wellFormed_of_valueOf hv)]

/-! ### The loads without an opcode -/

/-- Load(r, D8), where the byte at PC+1 exists (R135). -/
theorem execute_load_reg_d8 {s : State} (h : s.pc + 1 ≠ 0xFFFF) (r : Reg) :
    execute coreConfig (.load (.reg r) .d8) s = .ok (s.pc + 2) (setReg r (byteAt s (s.pc + 1)) s) :=
  (execute_load rfl s).trans (load_reg_of_source (readSource_d8_inBounds (inBounds_core h)) r)

/-- A load from D8, where the byte at PC+1 does not exist (R135, R136). -/
theorem execute_load_d8_at_top {s : State} (h : s.pc + 1 = 0xFFFF) (t : LoadTarget) :
    execute coreConfig (.load t .d8) s = .raised (.busFault 0xFFFF .read) s := by
  have hh : hasLoadHandler coreConfig t .d8 = true := by cases t <;> rfl
  rw [execute_load hh, load_of_source_raised (readSource_d8_outOfBounds (h ▸ outOfBounds_top)), h]

/-- Load(HLI, D8), where both of its bytes exist (R136). -/
theorem execute_load_hli_d8 {s : State} (h : s.pc + 1 ≠ 0xFFFF) (hl : readPair .hl s ≠ 0xFFFF) :
    execute coreConfig (.load .hli .d8) s =
      .ok (s.pc + 2) (putByte (readPair .hl s) (byteAt s (s.pc + 1)) s) :=
  (execute_load rfl s).trans (load_hli_of_source (readSource_d8_inBounds (inBounds_core h)) (inBounds_core hl))

/-- Writing back the byte that is there changes no byte. -/
theorem byteAt_putByte_self (a b : Word) (s : State) : byteAt (putByte a (byteAt s a) s) b = byteAt s b := by
  by_cases h : b = a
  · rw [h, byteAt_putByte_same]
  · exact byteAt_putByte_other h _ s

section
variable {c : Config} {s : State} (hc : c.admitsHliPair = true)
include hc

/-- Load(HLI, HLI) where the vocabulary admits it: the byte at HL is written back (R136). -/
theorem execute_hliPair_inBounds (h : isOutOfBounds c (readPair .hl s) = false) :
    execute c (.load .hli .hli) s =
      .ok (s.pc + 1) (putByte (readPair .hl s) (byteAt s (readPair .hl s)) s) :=
  (execute_hliPair_admitted hc s).trans (load_hli_of_source (readSource_hli_inBounds h) h)

theorem execute_hliPair_outOfBounds (h : isOutOfBounds c (readPair .hl s) = true) :
    execute c (.load .hli .hli) s = .raised (.busFault (readPair .hl s) .read) s :=
  (execute_hliPair_admitted hc s).trans (load_of_source_raised (readSource_hli_outOfBounds h) .hli)

end

/-- No byte of either table decodes to a value that is not well formed (R91, R112). -/
theorem decode_ne_of_not_wellFormed {v : InstrValue} (hv : v.wellFormed = false) (b : Byte) (prefixed : Bool) :
    decode b prefixed ≠ some v := by
  intro h
  cases prefixed with
  | true => cases h
  | false => exact Bool.false_ne_true (hv.symm.trans (wellFormed_of_decode h))

/-- Settles O14: each load by what its handler answers, and no opcode because none of these values is well formed. -/
theorem loadsWithoutAnOpcode : Obligations.LoadsWithoutAnOpcode := by
  refine ⟨fun r _ h => execute_load_reg_d8 h r, fun t _ h => execute_load_d8_at_top h t,
    fun s h hl => ?_, fun c s hc hl => ?_,
    fun _ _ hc hl => execute_hliPair_outOfBounds hc (isOutOfBounds_eq_true_iff.2 hl),
    fun _ s hc => execute_hliPair_unimplemented hc s, execute_hliPair_unimplemented rfl, fun _ => rfl,
    fun b prefixed t => ?_⟩
  · exact ⟨_, execute_load_hli_d8 h hl, byteAt_putByte_same _ _ s, fun _ ha => byteAt_putByte_other ha _ s, rfl⟩
  · exact ⟨_, execute_hliPair_inBounds hc (isOutOfBounds_eq_false_iff.2 hl), fun a => byteAt_putByte_self _ a s, rfl⟩
  · exact ⟨decode_ne_of_not_wellFormed (wellFormed_load_d8 t) b prefixed,
      decode_ne_of_not_wellFormed rfl b prefixed, decode_ne_of_not_wellFormed rfl b prefixed⟩

end Sys2Proof.Machine

/-! SUPPORT. The stack (O15, O16, O17, O18; R150 to R161): when the two primitives succeed, where they stop, and from
it the rows of PUSH and POP and the round trips. -/

namespace Sys2Proof.Machine

open Sys2Proof.Claim

/-! ### The two primitives, where both of their bytes exist -/

section
variable {c : Config} {s : State}

theorem PushStop.not_pushFits {w a : Word} {s1 : State} (h : PushStop c w s a s1) : ¬ PushFits c s := by
  rintro ⟨h1, h2⟩
  cases h with
  | first h => exact Bool.false_ne_true (h1.symm.trans h)
  | second _ h => exact Bool.false_ne_true (h2.symm.trans h)

theorem PopStop.not_popFits {a : Word} {s1 : State} (h : PopStop c s a s1) : ¬ PopFits c s := by
  rintro ⟨h1, h2⟩
  cases h with
  | first h => exact Bool.false_ne_true (h1.symm.trans h)
  | second _ h => exact Bool.false_ne_true (h2.symm.trans h)

/-- A push succeeds exactly where both of its bytes exist (R150). -/
theorem push16_eq_ok_iff {w : Word} {t : State} : push16 c w s = .ok () t ↔ PushFits c s ∧ t = pushed w s := by
  rcases push16_cases c w s with ⟨hp, h⟩ | ⟨a, s1, hp, h⟩
  · simp [h, hp, eq_comm]
  · simp [h, hp.not_pushFits]

/-- A pop succeeds exactly where both of its bytes exist (R151). -/
theorem pop16_eq_ok_iff {v : Word} {t : State} :
    pop16 c s = .ok v t ↔ PopFits c s ∧ v = topWord s ∧ t = setSp (s.sp + 2) s := by
  rcases pop16_cases c s with ⟨hp, h⟩ | ⟨a, s1, hp, h⟩
  · simp [h, hp, eq_comm]
  · simp [h, hp.not_popFits]

theorem PushFits.push16 (h : PushFits c s) (w : Word) : push16 c w s = .ok () (pushed w s) :=
  push16_eq_ok_iff.2 ⟨h, rfl⟩

theorem PopFits.pop16 (h : PopFits c s) : pop16 c s = .ok (topWord s) (setSp (s.sp + 2) s) :=
  pop16_eq_ok_iff.2 ⟨h, rfl, rfl⟩

/-- The handler of PUSH, where both of its bytes exist (R152). -/
theorem PushFits.push (h : PushFits c s) (p : Pair) :
    push c p s = .ok (s.pc + 1) (pushed (readPair p s) s) := by
  rw [Machine.push, h.push16]; rfl

/-- The handler of POP, where both of its bytes exist (R156). -/
theorem PopFits.pop (h : PopFits c s) (p : Pair) :
    pop c p s = .ok (s.pc + 1) (setSp (s.sp + 2) (writePair p (topWord s) s)) := by
  rw [Machine.pop, h.pop16]; cases p <;> rfl

end

/-! ### The edges of a store of 0xFFFF bytes -/

/-- Of two writes of SP around a write of memory the last one stands. -/
theorem setSp_putByte_setSp (w w' a : Word) (v : Byte) (s : State) :
    setSp w (putByte a v (setSp w' s)) = setSp w (putByte a v s) := rfl

section
variable {c : Config} {s : State} (hc : c.memSize = 0xFFFF)
include hc

theorem isOutOfBounds_eq_top (a : Word) : isOutOfBounds c a = decide (a = 0xFFFF) := by
  rw [← isOutOfBounds_core, isOutOfBounds, isOutOfBounds, hc, coreConfig_memSize]

theorem pushFits_iff : PushFits c s ↔ 2 ≤ s.sp.toNat := by
  simp only [PushFits, isOutOfBounds_eq_top hc, decide_eq_false_iff_not]
  bv_omega

theorem popFits_iff : PopFits c s ↔ s.sp ≠ 0xFFFE ∧ s.sp ≠ 0xFFFF := by
  simp only [PopFits, isOutOfBounds_eq_top hc, decide_eq_false_iff_not]
  bv_omega

/-- A push that is stopped at its first byte (R150, R161). -/
theorem push16_at_zero (h : s.sp = 0x0000) (w : Word) :
    push16 c w s = .raised (.busFault 0xFFFF .write) (setSp 0xFFFF s) := by
  simp [push16_eq, isOutOfBounds_eq_top hc, h]

/-- A push that is stopped at its second byte (R150, R161). -/
theorem push16_at_one (h : s.sp = 0x0001) (w : Word) :
    push16 c w s = .raised (.busFault 0xFFFF .write) (setSp 0xFFFF (putByte 0x0000 (hi8 w) s)) := by
  simp [push16_eq, isOutOfBounds_eq_top hc, setSp_putByte_setSp, h]

/-- A pop that is stopped at its second byte (R151, R161). -/
theorem pop16_at_next_to_top (h : s.sp = 0xFFFE) :
    pop16 c s = .raised (.busFault 0xFFFF .read) (setSp 0xFFFF s) := by
  simp [pop16_eq, isOutOfBounds_eq_top hc, h]

/-- A pop that is stopped at its first byte (R151, R161). -/
theorem pop16_at_top (h : s.sp = 0xFFFF) : pop16 c s = .raised (.busFault 0xFFFF .read) s := by
  simp [pop16_eq, isOutOfBounds_eq_top hc, h]

end

/-! ### The rows of PUSH and POP -/

/-- A PUSH that is stopped takes the fatal condition in the state `push16` had reached (R245). -/
theorem exec_push_of_raised {i : Instr} {p : Pair} (hv : valueOf i = some (.push p)) {s s1 : State} {cause : Fault}
    (h : push16 coreConfig (readPair p s) s = .raised cause s1) : exec i s = .next (takeFatal cause s1) := by
  rw [exec_of_value hv, execute, push, h]; rfl

/-- A POP that is stopped takes the fatal condition in the state `pop16` had reached (R245). -/
theorem exec_pop_of_raised {i : Instr} {p : Pair} (hv : valueOf i = some (.pop p)) {s s1 : State} {cause : Fault}
    (h : pop16 coreConfig s = .raised cause s1) : exec i s = .next (takeFatal cause s1) := by
  rw [exec_of_value hv, execute, pop, h]; rfl

/-- A PUSH that is not stopped (R152 to R155). -/
theorem exec_push {i : Instr} {p : Pair} (hv : valueOf i = some (.push p)) {s : State} (h : 2 ≤ s.sp.toNat) :
    exec i s = .next (setPc (s.pc + 1) (pushed (readPair p s) s)) := by
  rw [exec_of_value hv, execute, ((pushFits_iff rfl).2 h).push, commit_ok]

/-- A POP that is not stopped (R156 to R159). -/
theorem exec_pop {i : Instr} {p : Pair} (hv : valueOf i = some (.pop p)) {s : State} (h1 : s.sp ≠ 0xFFFE)
    (h2 : s.sp ≠ 0xFFFF) :
    exec i s = .next (setPc (s.pc + 1) (setSp (s.sp + 2) (writePair p (topWord s) s))) := by
  rw [exec_of_value hv, execute, ((popFits_iff rfl).2 ⟨h1, h2⟩).pop, commit_ok]

theorem byteAt_pushed_high (w : Word) (s : State) : byteAt (pushed w s) (s.sp - 1) = hi8 w := by
  rw [byteAt_pushed, if_neg (sub_two_ne_sub_one s.sp).symm, if_pos rfl]

theorem byteAt_pushed_low (w : Word) (s : State) : byteAt (pushed w s) (s.sp - 2) = lo8 w := by
  rw [byteAt_pushed, if_pos rfl]

section
variable {op : Byte} {i : Instr} {p : Pair}

/-- A row of R152 to R155, from its byte, its value and the halves of its pair. -/
theorem pushRow_of_value {high low : State → Byte} (hd : decodeOpcode op = some i)
    (hv : valueOf i = some (.push p)) (hp : ∀ s, readPair p s = concat (high s) (low s)) : PushRow op i high low := by
  have hhi (s : State) : hi8 (readPair p s) = high s := by rw [hp, hi8_concat]
  have hlo (s : State) : lo8 (readPair p s) = low s := by rw [hp, lo8_concat]
  refine ⟨hd, fun s => ⟨fun h => ?_, fun h => ?_, fun h => ?_⟩⟩
  · exact ⟨_, exec_push hv h, (byteAt_pushed_high _ s).trans (hhi s), (byteAt_pushed_low _ s).trans (hlo s),
      fun a h1 h2 => by rw [byteAt_setPc, byteAt_pushed, if_neg h2, if_neg h1], rfl⟩
  · exact exec_push_of_raised hv (push16_at_zero rfl h _)
  · exact ⟨_, exec_push_of_raised hv (push16_at_one rfl h _), (byteAt_putByte_same _ _ s).trans (hhi s),
      fun a ha => byteAt_putByte_other ha _ s, rfl⟩

/-- A row of R156 to R159, from its byte, its value and the write of its pair. -/
theorem popRow_of_value {result : State → Byte → Byte → State} (hd : decodeOpcode op = some i)
    (hv : valueOf i = some (.pop p)) (hr : ∀ s w, result s (hi8 w) (lo8 w) = writePair p w s) : PopRow op i result := by
  have htop (s : State) : result s (byteAt s (s.sp + 1)) (byteAt s s.sp) = writePair p (topWord s) s := by
    rw [← hr, topWord, hi8_concat, lo8_concat]
  refine ⟨hd, fun s => ⟨fun h1 h2 => ?_, fun h => ?_, fun h => ?_⟩⟩
  · rw [exec_pop hv h1 h2, htop]; rfl
  · exact exec_pop_of_raised hv (pop16_at_next_to_top rfl h)
  · exact exec_pop_of_raised hv (pop16_at_top rfl h)

end

/-- Settles O15: each row by its byte, its value and the halves of its pair. -/
theorem pushStoresThePairBelowSp : Obligations.PushStoresThePairBelowSp :=
  ⟨pushRow_of_value rfl rfl fun _ => rfl, pushRow_of_value rfl rfl fun _ => rfl,
    pushRow_of_value rfl rfl fun _ => rfl, pushRow_of_value rfl rfl fun _ => rfl⟩

/-- Settles O16: each row by its byte, its value and the write of its pair. -/
theorem popLoadsThePairFromSp : Obligations.PopLoadsThePairFromSp :=
  ⟨popRow_of_value rfl rfl fun _ _ => rfl, popRow_of_value rfl rfl fun _ _ => rfl,
    popRow_of_value rfl rfl fun _ _ => rfl, popRow_of_value rfl rfl fun _ _ => rfl⟩

/-! ### The edges, for both sizes of the store -/

theorem pushFits_full {c : Config} (hc : c.memSize = 0x10000) (s : State) : PushFits c s :=
  ⟨isOutOfBounds_full hc _, isOutOfBounds_full hc _⟩

theorem popFits_full {c : Config} (hc : c.memSize = 0x10000) (s : State) : PopFits c s :=
  ⟨isOutOfBounds_full hc _, isOutOfBounds_full hc _⟩

/-- Settles O17: the edges by where the primitives stop; a push or pop that succeeds had both of its bytes, which the
full store always has. -/
theorem stackPrimitivesAtTheEdges : Obligations.StackPrimitivesAtTheEdges := by
  refine ⟨fun c w s hc => ⟨fun h => push16_at_zero hc h w, fun h => ?_, fun h => ?_, fun h => ?_, fun h => ?_,
    pop16_at_next_to_top hc, pop16_at_top hc, fun t h => ?_, fun v t h => ?_⟩, fun c w s hc => ⟨?_, ?_⟩⟩
  · exact ⟨_, push16_at_one hc h w, byteAt_putByte_same _ _ s, fun a ha => byteAt_putByte_other ha _ s, rfl⟩
  · have hfit : PushFits c s := (pushFits_iff hc).2 (by simp [h])
    exact ⟨_, hfit.push16 w, by simp [h]⟩
  · have hfit : PushFits c s := (pushFits_iff hc).2 (by simp [h])
    have hhi := byteAt_pushed_high w s
    have hlo := byteAt_pushed_low w s
    rw [h] at hhi hlo
    exact ⟨_, hfit.push16 w, by simp [h], hhi, hlo⟩
  · have hfit : PopFits c s := (popFits_iff hc).2 (by simp [h])
    rw [hfit.pop16, topWord, h]
    rfl
  · obtain ⟨hfit, rfl⟩ := push16_eq_ok_iff.1 h
    have := (pushFits_iff hc).1 hfit
    rw [pushed_sp]
    bv_omega
  · obtain ⟨hfit, -, rfl⟩ := pop16_eq_ok_iff.1 h
    obtain ⟨h1, h2⟩ := (popFits_iff hc).1 hfit
    rw [setSp_sp]
    bv_omega
  · exact ⟨_, (pushFits_full hc s).push16 w, rfl⟩
  · exact ⟨_, _, (popFits_full hc s).pop16, rfl⟩

/-! ### A pushed word pops back -/

theorem sub_two_add_one (w : Word) : w - 2 + 1 = w - 1 := by bv_omega

theorem pushFits_of_lt_memSize {c : Config} {s : State} (h1 : (s.sp - 1).toNat < c.memSize)
    (h2 : (s.sp - 2).toNat < c.memSize) : PushFits c s :=
  ⟨isOutOfBounds_eq_false_iff.2 h1, isOutOfBounds_eq_false_iff.2 h2⟩

/-- The bytes a push wrote are the ones the next pop reads (R160). -/
theorem PushFits.popFits_pushed {c : Config} {s : State} (h : PushFits c s) (w : Word) : PopFits c (pushed w s) := by
  obtain ⟨h1, h2⟩ := h
  exact ⟨h2, by rwa [pushed_sp, sub_two_add_one]⟩

@[simp] theorem topWord_pushed (w : Word) (s : State) : topWord (pushed w s) = w := by
  rw [topWord, pushed_sp, sub_two_add_one, byteAt_pushed_high, byteAt_pushed_low, concat_hi8_lo8]

/-- What a pair reads after a write: the word, without its low nibble for AF (R28, R29). -/
theorem readPair_writePair (p : Pair) (w : Word) (s : State) :
    readPair p (writePair p w s) = if p = .af then w &&& 0xFFF0 else w := by
  split
  · next h => rw [h, readPair_writePair_af]
  · next h => exact readPair_writePair_same h w s

/-- Settles O18: the pop after a push reads the word pushed, and two increments of SP undo two decrements. -/
theorem pushThenPopReturnsTheWord : Obligations.PushThenPopReturnsTheWord := by
  refine ⟨fun c w s h1 h2 => ?_, fun c p q s h1 h2 => ?_⟩
  · have h := pushFits_of_lt_memSize h1 h2
    have hpop : pop16 c (pushed w s) = .ok w (setSp s.sp (pushed w s)) := by
      simpa using (h.popFits_pushed w).pop16
    exact ⟨_, h.push16 w, hpop, byteAt_pushed_high w s, byteAt_pushed_low w s, rfl⟩
  · have h := pushFits_of_lt_memSize h1 h2
    have hpop : pop c q (pushed (readPair p s) s) =
        .ok (s.pc + 1) (setSp s.sp (writePair q (readPair p s) (pushed (readPair p s) s))) := by
      simpa using (h.popFits_pushed (readPair p s)).pop q
    exact ⟨_, _, h.push p, hpop, rfl, by rw [readPair_setSp, readPair_writePair]⟩

end Sys2Proof.Machine

/-! SUPPORT. The 8-bit add (O7, O8, O9; R170 to R178): `add8` in the arithmetic of bytes, its laws, and the rows of
ADD A,r. -/

namespace Sys2Proof.Machine

open Sys2Proof.Claim

/-! ### The result and the flags -/

/-- The add of R170 with the byte sum for its result; the carries are those of the numbers. -/
theorem add8_eq (x y : Byte) :
    add8 x y = (x + y, { z := decide (x + y = 0)
                         n := false
                         h := decide (x.toNat % 16 + y.toNat % 16 > 0xF)
                         c := decide (x.toNat + y.toNat > 0xFF) }) := by
  have hsum : BitVec.ofNat 8 ((x.toNat + y.toNat) % 256) = x + y :=
    BitVec.eq_of_toNat_eq (by simp [BitVec.toNat_add])
  simp only [add8, hsum, beq_eq_decide]

/-- Settles O7: the number narrowed to a byte is the byte sum. -/
theorem addSetsResultAndFourFlags : Obligations.AddSetsResultAndFourFlags := add8_eq

@[simp] theorem add8_result (x y : Byte) : (add8 x y).1 = x + y := by rw [add8_eq]

@[simp] theorem add8_n (x y : Byte) : (add8 x y).2.n = false := rfl

theorem add8_z_iff (x y : Byte) : (add8 x y).2.z = true ↔ x.toNat + y.toNat = 0 ∨ x.toNat + y.toNat = 256 := by
  simp only [add8_eq, decide_eq_true_eq]
  bv_omega

theorem add8_h_iff (x y : Byte) : (add8 x y).2.h = true ↔ 15 < x.toNat % 16 + y.toNat % 16 := decide_eq_true_iff

theorem add8_c_iff (x y : Byte) : (add8 x y).2.c = true ↔ 255 < x.toNat + y.toNat := decide_eq_true_iff

/-! ### The laws -/

/-- A number below twice the base is its carry, 0 or 1, and its last digit. -/
theorem eq_mul_carry_add_mod {base n : Nat} {carry : Bool} (hc : carry = true ↔ base ≤ n) (hn : n < 2 * base) :
    n = base * carry.toNat + n % base := by
  cases carry with
  | false => simp [Nat.mod_eq_of_lt (show n < base by simpa using hc)]
  | true =>
    have hle : base ≤ n := hc.1 rfl
    rw [Nat.mod_eq_sub_mod hle, Nat.mod_eq_of_lt (by omega)]
    simp [hle]

/-- The carry out of bit 7 accounts for what the byte sum lost (R178). -/
theorem toNat_add_eq_carry_add_result (x y : Byte) :
    x.toNat + y.toNat = 256 * (add8 x y).2.c.toNat + (add8 x y).1.toNat := by
  rw [add8_result, BitVec.toNat_add]
  exact eq_mul_carry_add_mod (add8_c_iff x y) (by omega)

/-- The carry out of bit 3 accounts for what the low nibble of the sum lost (R178). -/
theorem nibble_add_eq_halfCarry_add_result (x y : Byte) :
    x.toNat % 16 + y.toNat % 16 = 16 * (add8 x y).2.h.toNat + (add8 x y).1.toNat % 16 := by
  have hlow : (add8 x y).1.toNat % 16 = (x.toNat % 16 + y.toNat % 16) % 16 := by
    rw [add8_result, BitVec.toNat_add]
    omega
  rw [hlow]
  exact eq_mul_carry_add_mod (add8_h_iff x y) (by omega)

theorem add8_z_and_c_iff (x y : Byte) :
    (add8 x y).2.z = true ∧ (add8 x y).2.c = true ↔ x.toNat + y.toNat = 256 := by
  rw [add8_z_iff, add8_c_iff]
  omega

/-- At the sum 256 the low nibbles add to 0 or to 16. -/
theorem add8_h_iff_of_sum_256 {x y : Byte} (h : x.toNat + y.toNat = 256) :
    (add8 x y).2.h = true ↔ ¬ (x.toNat % 16 = 0 ∧ y.toNat % 16 = 0) := by
  rw [add8_h_iff]
  omega

theorem add8_comm (x y : Byte) : add8 x y = add8 y x := by
  simp only [add8, Nat.add_comm]

theorem add8_zero (x : Byte) : add8 x 0 = (x, { z := decide (x = 0), n := false, h := false, c := false }) := by
  have hh : ¬ 15 < x.toNat % 16 := by omega
  have hc : ¬ 255 < x.toNat := by omega
  simp [add8_eq, hh, hc]

/-- The byte sum is the signed sum when that is a signed byte. -/
theorem toInt_add8 {x y : Byte} (hlo : -128 ≤ x.toInt + y.toInt) (hhi : x.toInt + y.toInt ≤ 127) :
    (add8 x y).1.toInt = x.toInt + y.toInt := by
  rw [add8_result, BitVec.toInt_add]
  exact Int.bmod_eq_of_le (by omega) (by omega)

/-! ### The rows of ADD A,r -/

theorem exists_add_of_mem_addRows {i : Instr}
    (h : i ∈ [Instr.addAB, .addAC, .addAD, .addAE, .addAH, .addAL, .addAA]) : ∃ r, valueOf i = some (.add r) := by
  simp only [List.mem_cons, List.not_mem_nil, or_false] at h
  rcases h with rfl | rfl | rfl | rfl | rfl | rfl | rfl <;> exact ⟨_, rfl⟩

section
variable {i : Instr} {r : Reg} (hv : valueOf i = some (.add r))
include hv

/-- Every ADD row commits the handler of R171. -/
theorem exec_add (s : State) : exec i s = commit (addToA r s) := exec_of_value hv s

/-- The flags before an ADD change nothing of what it leaves (R178). -/
theorem exec_add_setFlags (f : Flags) (s : State) : exec i (setFlags f s) = exec i s := by
  rw [exec_add hv, exec_add hv, addToA_setFlags]

/-- A row of R171 to R177, from its byte, its value and the register it adds. -/
theorem addRow_of_value {op : Byte} {operand : State → Byte} (hd : decodeOpcode op = some i)
    (ho : ∀ s, operand s = getReg r s) : AddRow op i operand := by
  refine ⟨hd, fun s => ?_⟩
  rw [exec_add hv, addToA, getReg_a, ← ho, add8_eq]
  rfl

end

/-- Settles O8: the laws of `add8`, and that the handler of ADD A,r reads no flag. -/
theorem addLaws : Obligations.AddLaws := by
  refine ⟨fun x y => ⟨toNat_add_eq_carry_add_result x y, nibble_add_eq_halfCarry_add_result x y, add8_n x y,
    add8_z_iff x y, add8_z_and_c_iff x y, add8_h_iff_of_sum_256, add8_comm x y, add8_zero x, toInt_add8⟩,
    fun i hi s f => ?_⟩
  obtain ⟨r, hv⟩ := exists_add_of_mem_addRows hi
  exact exec_add_setFlags hv f s

/-- Settles O9: each row by its byte, its value and the register it adds. -/
theorem addInstructionsWriteAccumulatorAndFlags : Obligations.AddInstructionsWriteAccumulatorAndFlags := by
  iterate 6 refine ⟨addRow_of_value rfl rfl fun _ => rfl, ?_⟩
  exact addRow_of_value rfl rfl fun _ => rfl

end Sys2Proof.Machine

/-! SUPPORT. NOP and HALT (O24, O25; R190, R191): a run over a store in which every byte reads as NOP, and which
instruction ends in UnimplementedInstruction. -/

namespace Sys2Proof.Machine

/-! ### A run in two parts -/

/-- A run of `m + n` steps is a run of `n` steps from where `m` steps lead. -/
theorem run_add_of_run {m n : Nat} {s t : State} (h : Sys2Proof.core.run m s = .next t) :
    Sys2Proof.core.run (m + n) s = Sys2Proof.core.run n t := by
  induction m generalizing s with
  | zero => cases h; rw [Nat.zero_add]
  | succ m ih =>
    obtain ⟨u, hu⟩ := step_next s
    rw [Nat.add_right_comm, run_succ_of_step hu]
    exact ih (run_succ_of_step hu ▸ h)

/-! ### NOP -/

/-- The step of a byte that the table has, which is not 0xCB (R92, R110 to R115). -/
theorem step_of_byteAt {s : State} {b : Byte} {i : Instr} (hs : s.status = .running) (hpc : s.pc ≠ 0xFFFF)
    (hb : byteAt s s.pc = b) (hi : decodeOpcode b = some i) : step s = exec i s := by
  subst hb
  exact step_of_decodeOpcode hs hpc (ne_prefix_of_decodeOpcode hi) hi

theorem exec_nop (s : State) : exec .nop s = .next (setPc (s.pc + 1) s) := rfl

theorem step_nop {s : State} (hs : s.status = .running) (hpc : s.pc ≠ 0xFFFF) (hb : byteAt s s.pc = 0x00) :
    step s = .next (setPc (s.pc + 1) s) :=
  (step_of_byteAt hs hpc hb rfl).trans (exec_nop s)

theorem byteAt_of_mem_nil {s : State} (hm : s.mem = []) (a : Word) : byteAt s a = 0x00 := by
  rw [byteAt, hm, Memory.read_nil]

/-- An empty memory runs NOPs as long as PC does not pass 0xFFFF (R41, R190). -/
theorem run_of_mem_nil {n : Nat} {s : State} (hs : s.status = .running) (hm : s.mem = [])
    (hn : s.pc.toNat + n ≤ 0xFFFF) : Sys2Proof.core.run n s = .next (setPc (s.pc + BitVec.ofNat 16 n) s) := by
  induction n generalizing s with
  | zero => simp [Host.Core.run, setPc]
  | succ n ih =>
    have hpc : s.pc ≠ 0xFFFF := by bv_omega
    have hnext : (s.pc + 1).toNat + n ≤ 0xFFFF := by bv_omega
    have hsum : s.pc + 1 + BitVec.ofNat 16 n = s.pc + BitVec.ofNat 16 (n + 1) := by bv_omega
    rw [run_succ_of_step (step_nop hs hpc (byteAt_of_mem_nil hm s.pc)), ih (s := setPc (s.pc + 1) s) hs hm hnext,
      setPc_setPc, setPc_pc, hsum]

/-- A step at 0xFFFF, where there is no byte to fetch (R50, R111). -/
theorem step_at_top {s : State} (hs : s.status = .running) (hpc : s.pc = 0xFFFF) :
    step s = .next (takeFatal (.busFault 0xFFFF .read) s) :=
  step_of_fetchInstr_raised hs (by simp [fetchInstr, fetch_at_top hpc])

/-- Settles O24: the run by induction on its steps, each a NOP (`run_of_mem_nil`); after 65535 of them PC is 0xFFFF. -/
theorem nopAdvancesPcOnly : Obligations.NopAdvancesPcOnly := by
  refine ⟨rfl, exec_nop, fun _ => step_nop, fun s hs hpc hm => ?_⟩
  have hrun (n : Nat) (hn : n ≤ 65535) : Sys2Proof.core.run n s = .next (setPc (BitVec.ofNat 16 n) s) := by
    simpa [hpc] using run_of_mem_nil (n := n) hs hm (by simpa [hpc] using hn)
  refine ⟨hrun, ?_⟩
  calc Sys2Proof.core.run (65535 + 1) s
      = Sys2Proof.core.run 1 (setPc 0xFFFF s) := run_add_of_run (hrun 65535 le_rfl)
    _ = .next (takeFatal (.busFault 0xFFFF .read) (setPc 0xFFFF s)) := run_succ_of_step (step_at_top hs rfl)

/-! ### HALT -/

theorem exec_halt (s : State) : exec .halt s = .next (takeFatal (.unimplementedInstruction .halt) s) := rfl

theorem step_of_fetchInstr_ok {s : State} {i : Instr} (hs : s.status = .running)
    (h : fetchInstr coreConfig s = .ok i s) : step s = exec i s := by
  simp [step_running hs, h]

/-- What the fetch and the decode answer, whole: a read that faults, an unrecognized byte, the row PREFIX, or the row of
the byte at PC (R111 to R114). -/
theorem fetchInstr_cases (c : Config) (s : State) :
    (∃ a, fetchInstr c s = .raised (.busFault a .read) s) ∨
    (∃ b, fetchInstr c s = .raised (.unrecognizedOpcode b false) s) ∨
    (∃ b, fetchInstr c s = .ok (.prefixOp b) s) ∨
    (∃ i, decodeOpcode (byteAt s s.pc) = some i ∧ fetchInstr c s = .ok i s) := by
  rw [fetchInstr, fetch_eq]
  split
  · exact .inl ⟨_, rfl⟩
  · split
    · split
      · exact .inl ⟨_, rfl⟩
      · exact .inr (.inr (.inl ⟨_, rfl⟩))
    · cases hd : decodeOpcode (byteAt s s.pc) with
      | none => exact .inr (.inl ⟨byteAt s s.pc, by simp [decodeFetched, hd]⟩)
      | some i => exact .inr (.inr (.inr ⟨i, rfl, by simp [decodeFetched, hd]⟩))

/-- Among the ways a value can end, only the one without a handler raises UnimplementedInstruction (R115, R242). -/
theorem Ends.unimplementedInstruction {c : Config} {s s1 : State} {u v : InstrValue}
    (h : Ends c s u (.raised (.unimplementedInstruction v) s1)) : v = u ∧ (u = .halt ∨ u.wellFormed = false) := by
  cases h with
  | unimplemented hu => exact ⟨rfl, hu⟩

theorem eq_halt_of_valueOf {i : Instr} (h : valueOf i = some .halt) : i = .halt := by
  cases i <;> cases h
  rfl

/-- Only HALT takes UnimplementedInstruction: every other row has a value with a handler, or is the row PREFIX (R191). -/
theorem eq_halt_of_exec_unimplemented {i : Instr} {v : InstrValue} {s t : State} (hs : s.status = .running)
    (h : exec i s = .next t) (ht : t.status = .faulted (.unimplementedInstruction v)) : i = .halt ∧ v = .halt := by
  rcases exec_cases h with ⟨u, r, hu, he, hr⟩ | ⟨b, rfl, rfl⟩
  · cases r with
    | ok w s1 =>
      cases hr
      rw [setPc_status, he.status, hs] at ht
      cases ht
    | raised cause s1 =>
      cases hr
      cases ht
      obtain ⟨rfl, rfl | hw⟩ := he.unimplementedInstruction
      · exact ⟨eq_halt_of_valueOf hu, rfl⟩
      · simp [wellFormed_of_valueOf hu] at hw
  · cases ht

/-- HALT stands at the one byte that encodes it (R89). -/
theorem eq_of_decodeOpcode_halt {b : Byte} (h : decodeOpcode b = some .halt) : b = 0x76 :=
  (List.singleton_inj.1 (encode_of_decodeOpcode b .halt h)).symm

/-- Settles O25: HALT has no handler, so its step takes the fatal condition and the next one finds the machine Faulted;
the fetch raises other causes, and no other row takes this one. -/
theorem haltIsDecodedAndTakesUnimplementedInstruction : Obligations.HaltIsDecodedAndTakesUnimplementedInstruction := by
  refine ⟨rfl, exec_halt, fun s hs hpc hb => ⟨(step_of_byteAt hs hpc hb rfl).trans (exec_halt s), step_faulted rfl⟩,
    fun s t v hs h ht => ?_⟩
  rcases fetchInstr_cases coreConfig s with ⟨a, hf⟩ | ⟨b, hf⟩ | ⟨b, hf⟩ | ⟨i, hd, hf⟩
  · cases (step_of_fetchInstr_raised hs hf).symm.trans h; cases ht
  · cases (step_of_fetchInstr_raised hs hf).symm.trans h; cases ht
  · cases (eq_halt_of_exec_unimplemented hs (step_of_fetchInstr_ok hs hf ▸ h) ht).1
  · obtain ⟨rfl, rfl⟩ := eq_halt_of_exec_unimplemented hs (step_of_fetchInstr_ok hs hf ▸ h) ht
    exact ⟨rfl, eq_of_decodeOpcode_halt hd⟩

end Sys2Proof.Machine

/-! SUPPORT. The absolute jumps (O19; R202 to R207): which states have the two operand bytes, and from it each row of
JP. -/

namespace Sys2Proof.Machine

open Sys2Proof.Claim

/-! ### The operand at the edges of the store -/

theorem not_operandInRange_iff {s : State} : ¬ OperandInRange s ↔ s.pc = 0xFFFD ∨ s.pc = 0xFFFE := by
  rw [OperandInRange, not_and_or, not_ne_iff, not_ne_iff]

/-- The operand of a JP or CALL, where both of its bytes exist (R201). -/
theorem imm16_of_operandInRange {s : State} (h : OperandInRange s) :
    imm16 coreConfig s = .ok (concat (byteAt s (s.pc + 2)) (byteAt s (s.pc + 1))) s := by
  obtain ⟨h2, h1⟩ := h
  exact imm16_core (by bv_omega) (by bv_omega)

/-- At 0xFFFD the high byte of the operand is missing, at 0xFFFE the low one: both reads stop at 0xFFFF (R201, R204). -/
theorem imm16_of_not_operandInRange {s : State} (h : ¬ OperandInRange s) :
    imm16 coreConfig s = .raised (.busFault 0xFFFF .read) s := by
  rcases not_operandInRange_iff.1 h with h | h <;> simp [imm16_eq, isOutOfBounds_core, h]

/-! ### The rows of JP -/

section
variable {i : Instr} {k : Cond} (hv : valueOf i = some (.jump k)) {s : State}
include hv

/-- A JP whose condition fails reads no operand (R202, R204). -/
theorem exec_jump_untaken (hk : condHolds k s.f = false) : exec i s = .next (setPc (s.pc + 3) s) := by
  rw [exec_of_value hv, execute, jump, hk, if_neg Bool.false_ne_true, commit_ok]

/-- A JP whose condition holds commits its operand (R202). -/
theorem exec_jump_taken (hk : condHolds k s.f = true) : exec i s = commit (imm16 coreConfig s) := by
  rw [exec_of_value hv, execute, jump, if_pos hk]

/-- A row of R203 to R207, from its byte, its value and its condition. -/
theorem jumpRow_of_value {op : Byte} {taken : Flags → Bool} (hd : decodeOpcode op = some i)
    (ht : ∀ f, taken f = condHolds k f) : JumpRow op i taken := by
  refine ⟨hd, fun s => ?_⟩
  rw [ht]
  refine ⟨fun hk => exec_jump_untaken hv hk, fun hk h => ?_, fun hk h => ?_⟩
  · rw [exec_jump_taken hv hk, imm16_of_operandInRange h, commit_ok]; rfl
  · rw [exec_jump_taken hv hk, imm16_of_not_operandInRange h]; rfl

end

/-- Settles O19: each row by its byte, its value and its condition. -/
theorem jumpsFollowTheirCondition : Obligations.JumpsFollowTheirCondition :=
  ⟨jumpRow_of_value rfl rfl fun _ => rfl, jumpRow_of_value rfl rfl fun _ => rfl, jumpRow_of_value rfl rfl fun _ => rfl,
    jumpRow_of_value rfl rfl fun _ => rfl, jumpRow_of_value rfl rfl fun _ => rfl⟩

end Sys2Proof.Machine

/-! SUPPORT. Calls and returns (O20, O21, O22, O23; R215 to R228): what a CALL and a RET do when taken and when not,
from it each row, the operand a push writes over, and the return that undoes its call. -/

namespace Sys2Proof.Machine

open Sys2Proof.Claim

/-! ### The rows of CALL -/

section
variable {i : Instr} {k : Cond} (hv : valueOf i = some (.call k)) {s : State}
include hv

/-- A CALL whose condition fails pushes nothing and reads no operand (R215). -/
theorem exec_call_untaken (hk : condHolds k s.f = false) : exec i s = .next (setPc (s.pc + 3) s) := by
  rw [exec_of_value hv, execute, call, hk, if_neg Bool.false_ne_true, commit_ok]

/-- A CALL that is stopped in its push takes the fatal condition in the state `push16` had reached (R215, R245). -/
theorem exec_call_of_push_raised (hk : condHolds k s.f = true) {cause : Fault} {s1 : State}
    (h : push16 coreConfig (s.pc + 3) s = .raised cause s1) : exec i s = .next (takeFatal cause s1) := by
  rw [exec_of_value hv, execute, call, if_pos hk, h, Result.andThen_raised, commit_raised]

/-- A CALL whose push is complete commits the operand of the state after the push (R215). -/
theorem exec_call_taken (hk : condHolds k s.f = true) (hp : PushFits coreConfig s) :
    exec i s = commit (imm16 coreConfig (pushed (s.pc + 3) s)) := by
  rw [exec_of_value hv, execute, call, if_pos hk, hp.push16, Result.andThen_ok]

/-- A taken CALL that no fatal condition stops goes to the two bytes that stand at PC+1 and PC+2 once PC+3 is pushed
(R215, R221). -/
theorem exec_call_taken_inRange (hk : condHolds k s.f = true) (hp : PushFits coreConfig s) (h : OperandInRange s) :
    exec i s = .next (setPc (concat (byteAt (pushed (s.pc + 3) s) (s.pc + 2)) (byteAt (pushed (s.pc + 3) s) (s.pc + 1)))
      (pushed (s.pc + 3) s)) := by
  rw [exec_call_taken hv hk hp, imm16_of_operandInRange (s := pushed (s.pc + 3) s) h, commit_ok, pushed_pc]

/-- A taken CALL that leaves the machine running has pushed PC+3 and changed nothing else but PC. -/
theorem eq_pushed_of_exec_call_running (hk : condHolds k s.f = true) {t : State} (h : exec i s = .next t)
    (ht : t.status = .running) : PushFits coreConfig s ∧ ∃ w, t = setPc w (pushed (s.pc + 3) s) := by
  rcases push16_cases coreConfig (s.pc + 3) s with ⟨hp, -⟩ | ⟨a, s1, -, hraised⟩
  · rw [exec_call_taken hv hk hp] at h
    obtain ⟨w, s1, hw⟩ := commit_running h ht
    rcases imm16_cases coreConfig (pushed (s.pc + 3) s) with ⟨-, -, hok⟩ | ⟨a, -, hraised⟩
    · rw [hok] at h
      cases h
      exact ⟨hp, _, rfl⟩
    · cases hraised.symm.trans hw
  · rw [exec_call_of_push_raised hv hk hraised] at h
    cases h
    cases ht

/-- A row of R216 to R220, from its byte, its value and its condition. -/
theorem callRow_of_value {op : Byte} {taken : Flags → Bool} (hd : decodeOpcode op = some i)
    (ht : ∀ f, taken f = condHolds k f) : CallRow op i taken := by
  refine ⟨hd, fun s => ?_⟩
  rw [ht]
  refine ⟨fun hk => exec_call_untaken hv hk, fun hk hsp => ?_, fun hk h => ?_, fun hk h => ?_⟩
  · have hp : PushFits coreConfig s := (pushFits_iff rfl).2 hsp
    have hword : byteAt (pushed (s.pc + 3) s) (s.sp - 1) ++ byteAt (pushed (s.pc + 3) s) (s.sp - 2) = s.pc + 3 := by
      rw [byteAt_pushed_high, byteAt_pushed_low]
      exact concat_hi8_lo8 _
    have hother (a : Word) (h1 : a ≠ s.sp - 1) (h2 : a ≠ s.sp - 2) : byteAt (pushed (s.pc + 3) s) a = byteAt s a :=
      byteAt_pushed_other (by rw [List.mem_pair, not_or]; exact ⟨h1, h2⟩)
    by_cases h : OperandInRange s
    · exact ⟨_, exec_call_taken_inRange hv hk hp h, hword, hother, fun _ => rfl, fun hn => absurd h hn⟩
    · refine ⟨takeFatal (.busFault 0xFFFF .read) (pushed (s.pc + 3) s), ?_, hword, hother, fun hn => absurd hn h,
        fun _ => rfl⟩
      rw [exec_call_taken hv hk hp, imm16_of_not_operandInRange (s := pushed (s.pc + 3) s) h, commit_raised]
  · exact exec_call_of_push_raised hv hk (push16_at_zero rfl h _)
  · exact ⟨_, exec_call_of_push_raised hv hk (push16_at_one rfl h _), byteAt_putByte_same _ _ s,
      fun a ha => byteAt_putByte_other ha _ s, rfl⟩

end

/-- Settles O20: each row by its byte, its value and its condition. -/
theorem callsPushTheReturnAddressAndJump : Obligations.CallsPushTheReturnAddressAndJump :=
  ⟨callRow_of_value rfl rfl fun _ => rfl, callRow_of_value rfl rfl fun _ => rfl, callRow_of_value rfl rfl fun _ => rfl,
    callRow_of_value rfl rfl fun _ => rfl, callRow_of_value rfl rfl fun _ => rfl⟩

theorem valueOf_of_mem_callRows : ∀ x ∈ callRows, valueOf x.1 = some (.call x.2) := by decide

theorem valueOf_of_mem_retRows : ∀ x ∈ retRows, valueOf x.1 = some (.ret x.2) := by decide

/-! ### A push over the operand -/

/-- Settles O21: where SP is decides which of the two operand bytes the push has written. -/
theorem callOverItsOwnOperandReadsThePushedBytes : Obligations.CallOverItsOwnOperandReadsThePushedBytes := by
  intro x hx s hk hsp hop
  refine ⟨_, exec_call_taken_inRange (valueOf_of_mem_callRows x hx) hk ((pushFits_iff rfl).2 hsp) hop,
    fun h => ?_, fun h => ?_, fun h => ?_⟩
  · have hhi : s.pc + 2 = s.sp - 1 := by bv_omega
    have hlo : s.pc + 1 = s.sp - 2 := by bv_omega
    rw [setPc_pc, hhi, hlo, byteAt_pushed_high, byteAt_pushed_low, concat_hi8_lo8]
  · have hlo : s.pc + 1 = s.sp - 1 := by bv_omega
    have hother : s.pc + 2 ∉ [s.sp - 1, s.sp - 2] := by rw [List.mem_pair]; bv_omega
    rw [setPc_pc, hlo, byteAt_pushed_high, byteAt_pushed_other hother]
    rfl
  · have hhi : s.pc + 2 = s.sp - 2 := by bv_omega
    have hother : s.pc + 1 ∉ [s.sp - 1, s.sp - 2] := by rw [List.mem_pair]; bv_omega
    rw [setPc_pc, hhi, byteAt_pushed_low, byteAt_pushed_other hother]
    rfl

/-! ### The rows of RET -/

section
variable {i : Instr} {k : Cond} (hv : valueOf i = some (.ret k)) {s : State}
include hv

/-- A RET whose condition fails pops nothing (R222). -/
theorem exec_ret_untaken (hk : condHolds k s.f = false) : exec i s = .next (setPc (s.pc + 1) s) := by
  rw [exec_of_value hv, execute, ret, hk, if_neg Bool.false_ne_true, commit_ok]

/-- A RET whose condition holds commits the word it pops (R222). -/
theorem exec_ret_taken (hk : condHolds k s.f = true) : exec i s = commit (pop16 coreConfig s) := by
  rw [exec_of_value hv, execute, ret, if_pos hk]

/-- A taken RET where both of the bytes it pops exist (R222). -/
theorem exec_ret_of_popFits (hk : condHolds k s.f = true) (h : PopFits coreConfig s) :
    exec i s = .next (setPc (topWord s) (setSp (s.sp + 2) s)) := by
  rw [exec_ret_taken hv hk, h.pop16, commit_ok]

/-- A row of R223 to R227, from its byte, its value and its condition. -/
theorem retRow_of_value {op : Byte} {taken : Flags → Bool} (hd : decodeOpcode op = some i)
    (ht : ∀ f, taken f = condHolds k f) : RetRow op i taken := by
  refine ⟨hd, fun s => ?_⟩
  rw [ht]
  refine ⟨fun hk => exec_ret_untaken hv hk, fun hk h1 h2 => ?_, fun hk h => ?_, fun hk h => ?_⟩
  · exact exec_ret_of_popFits hv hk ((popFits_iff rfl).2 ⟨h1, h2⟩)
  · rw [exec_ret_taken hv hk, pop16_at_next_to_top rfl h]; rfl
  · rw [exec_ret_taken hv hk, pop16_at_top rfl h]; rfl

end

/-- Settles O22: each row by its byte, its value and its condition. -/
theorem returnsFollowTheirCondition : Obligations.ReturnsFollowTheirCondition :=
  ⟨retRow_of_value rfl rfl fun _ => rfl, retRow_of_value rfl rfl fun _ => rfl, retRow_of_value rfl rfl fun _ => rfl,
    retRow_of_value rfl rfl fun _ => rfl, retRow_of_value rfl rfl fun _ => rfl⟩

/-! ### A return after its call -/

theorem PopFits.of_sp_eq {c : Config} {t u : State} (h : PopFits c t) (hsp : u.sp = t.sp) : PopFits c u := by
  rwa [PopFits, hsp]

theorem topWord_congr {t u : State} (hsp : u.sp = t.sp) (hlo : byteAt u t.sp = byteAt t t.sp)
    (hhi : byteAt u (t.sp + 1) = byteAt t (t.sp + 1)) : topWord u = topWord t := by
  rw [topWord, topWord, hsp, hlo, hhi]

/-- Settles O23: the RET pops the word the CALL pushed, and its increments of SP undo the push. -/
theorem returnUndoesItsCall : Obligations.ReturnUndoesItsCall := by
  intro x hx y hy s t u _ hk h ht hsp hlo hhi hky
  obtain ⟨hp, w, rfl⟩ := eq_pushed_of_exec_call_running (valueOf_of_mem_callRows x hx) hk h ht
  have hfit : PopFits coreConfig u := (hp.popFits_pushed (s.pc + 3)).of_sp_eq hsp
  have htop : topWord u = s.pc + 3 := (topWord_congr hsp hlo hhi).trans (topWord_pushed (s.pc + 3) s)
  have hback : u.sp + 2 = s.sp := by rw [hsp, setPc_sp, pushed_sp, BitVec.sub_add_cancel]
  rw [exec_ret_of_popFits (valueOf_of_mem_retRows y hy) hky hfit, htop, hback]
  rfl

end Sys2Proof.Machine

/-! SUPPORT. Fatal conditions (O39, O40; R243 to R245): how the step of R117 stops, what a stopped step leaves of the
state before it, and that a BusFault names an address that does not exist. -/

namespace Sys2Proof.Machine

/-! ### How the step stops -/

section
variable {c : Config} {s s1 t : State} {v : InstrValue} {cause : Fault}

/-- The fetch answers a byte, or stops at an address that does not exist; neither changes the state (R111, R113). -/
theorem fetch_cases (c : Config) (s : State) :
    (∃ x, fetch c s = .ok x s) ∨ ∃ a, isOutOfBounds c a = true ∧ fetch c s = .raised (.busFault a .read) s := by
  rw [fetch_eq]
  split
  · next h0 => exact .inr ⟨s.pc, h0, rfl⟩
  · split
    · split
      · next h1 => exact .inr ⟨s.pc + 1, h1, rfl⟩
      · exact .inl ⟨_, rfl⟩
    · exact .inl ⟨_, rfl⟩

/-- How lines 2 to 8 of R117 end: a read of the fetch that faults, a byte the decoder does not know, or one of the ends
of an instruction value. -/
theorem stepBody_cases (c : Config) (s : State) :
    (∃ a, isOutOfBounds c a = true ∧ stepBody c s = .raised (.busFault a .read) s) ∨
    (∃ b prefixed, stepBody c s = .raised (.unrecognizedOpcode b prefixed) s) ∨
    ∃ v, Ends c s v (stepBody c s) := by
  unfold stepBody
  rcases fetch_cases c s with ⟨x, hf⟩ | ⟨a, ha, hf⟩
  · rw [hf, Result.andThen_ok]
    cases decode x.op x.prefixed with
    | none => exact .inr (.inl ⟨x.op, x.prefixed, rfl⟩)
    | some v => exact .inr (.inr ⟨v, execute_ends c v s⟩)
  · rw [hf]; exact .inl ⟨a, ha, rfl⟩

/-- A body that returns leaves the run status alone (R35). -/
theorem stepBody_status {w : Word} (h : stepBody c s = .ok w s1) : s1.status = s.status := by
  rcases stepBody_cases c s with ⟨a, -, hr⟩ | ⟨b, prefixed, hr⟩ | ⟨v, he⟩
  · cases hr.symm.trans h
  · cases hr.symm.trans h
  · rw [h] at he; exact he.status

/-- A step that leaves a running machine Faulted is the trap entry of a body that raised (R244). -/
theorem stepBody_raised_of_faulted (hs : s.status = .running) (h : commit (stepBody c s) = .next t)
    (ht : t.status = .faulted cause) : ∃ s1, stepBody c s = .raised cause s1 ∧ t = takeFatal cause s1 := by
  cases hr : stepBody c s with
  | ok w s1 =>
    rw [hr] at h
    cases h
    rw [setPc_status, stepBody_status hr, hs] at ht
    cases ht
  | raised cause' s1 =>
    rw [hr] at h
    cases h
    cases ht
    exact ⟨s1, rfl, rfl⟩

/-! ### What a fatal condition leaves of the state -/

/-- What a stopped step has kept of the state `s` before it: PC, the flags and the registers; SP but for the decrements
of a push or the one increment of a pop (R244, R245). -/
def KeptAtStop (s t : State) : Prop :=
  t.pc = s.pc ∧ t.f = s.f ∧ (∀ r : Reg, getReg r t = getReg r s) ∧
  (t.sp = s.sp ∨ t.sp = s.sp - 1 ∨ t.sp = s.sp - 2 ∨ t.sp = s.sp + 1)

theorem KeptAtStop.refl (s : State) : KeptAtStop s s := ⟨rfl, rfl, fun _ => rfl, .inl rfl⟩

theorem keptAtStop_pushed (w : Word) (s : State) : KeptAtStop s (pushed w s) :=
  ⟨rfl, rfl, fun r => getReg_pushed r w s, .inr (.inr (.inl rfl))⟩

theorem PushStop.keptAtStop {w a : Word} (h : PushStop c w s a s1) : KeptAtStop s s1 := by
  have hreg := h.getReg
  cases h with
  | first => exact ⟨rfl, rfl, hreg, .inr (.inl rfl)⟩
  | second => exact ⟨rfl, rfl, hreg, .inr (.inr (.inl rfl))⟩

theorem PopStop.keptAtStop {a : Word} (h : PopStop c s a s1) : KeptAtStop s s1 := by
  have hreg := h.getReg
  cases h with
  | first => exact ⟨rfl, rfl, hreg, .inl rfl⟩
  | second => exact ⟨rfl, rfl, hreg, .inr (.inr (.inr rfl))⟩

/-- The trap entry changes the status only (R244). -/
theorem KeptAtStop.takeFatal (h : KeptAtStop s s1) (cause : Fault) : KeptAtStop s (takeFatal cause s1) := by
  obtain ⟨hpc, hf, hreg, hsp⟩ := h
  exact ⟨hpc, hf, fun r => (getReg_setStatus r _ s1).trans (hreg r), hsp⟩

/-- An instruction value that raises has written no register and no flag: those writes follow its last access (R245). -/
theorem Ends.keptAtStop (h : Ends c s v (.raised cause s1)) : KeptAtStop s s1 := by
  cases h with
  | unimplemented | loadStop | jumpStop => exact .refl s
  | pushStop hp | callPushStop _ hp => exact hp.keptAtStop
  | popStop hp | retStop _ hp => exact hp.keptAtStop
  | callOperandStop => exact keptAtStop_pushed (s.pc + 3) s

theorem stepBody_keptAtStop (h : stepBody c s = .raised cause s1) : KeptAtStop s s1 := by
  rcases stepBody_cases c s with ⟨a, -, hr⟩ | ⟨b, prefixed, hr⟩ | ⟨v, he⟩
  · cases hr.symm.trans h; exact .refl s
  · cases hr.symm.trans h; exact .refl s
  · rw [h] at he; exact he.keptAtStop

/-! ### The address a BusFault names -/

/-- An instruction value takes a BusFault only at an address that does not exist (R50, R243). -/
theorem Ends.outOfBounds {a : Word} {x : Access} (h : Ends c s v (.raised (.busFault a x) s1)) :
    isOutOfBounds c a = true := by
  cases h with
  | loadStop ha | jumpStop _ ha | callOperandStop _ _ ha => exact ha
  | pushStop hp | callPushStop _ hp => exact hp.outOfBounds
  | popStop hp | retStop _ hp => exact hp.outOfBounds

theorem stepBody_outOfBounds {a : Word} {x : Access} (h : stepBody c s = .raised (.busFault a x) s1) :
    isOutOfBounds c a = true := by
  rcases stepBody_cases c s with ⟨a', ha, hr⟩ | ⟨b, prefixed, hr⟩ | ⟨v, he⟩
  · cases hr.symm.trans h; exact ha
  · cases hr.symm.trans h
  · rw [h] at he; exact he.outOfBounds

theorem stepWith_running (hs : s.status = .running) : stepWith c s = commit (stepBody c s) := by
  simp only [stepWith, hs]

end

/-- Settles O39: the step is the commit of its body, which raised in a state that keeps all but SP and memory. -/
theorem fatalConditionKeepsPcFlagsAndRegisters : Obligations.FatalConditionKeepsPcFlagsAndRegisters := by
  intro s t cause hs h ht
  rw [step_eq_commit_stepBody hs] at h
  obtain ⟨s1, hr, rfl⟩ := stepBody_raised_of_faulted hs h ht
  exact (stepBody_keptAtStop hr).takeFatal cause

/-- Settles O40: a BusFault names an address that does not exist, and the full store has every address. -/
theorem fullSizeStoreNeverFaults : Obligations.FullSizeStoreNeverFaults := by
  intro c s t hc hs h a x ht
  rw [stepWith_running hs] at h
  obtain ⟨s1, hr, -⟩ := stepBody_raised_of_faulted hs h ht
  exact Bool.false_ne_true ((isOutOfBounds_full hc a).symm.trans (stepBody_outOfBounds hr))

end Sys2Proof.Machine

/-! SUPPORT. What the host places, and where PC and SP can wrap (O44, O47; R33, R282, R283, R288): the load read back
byte by byte, and how far a value that returns moves PC and SP. -/

namespace Sys2Proof.Machine

open Sys2Proof.Claim

/-! ### The host's load, read back -/

section
variable {c : Config} {a b k : Nat} {v : Byte}

theorem read_hostWriteByte_other (h : b ≠ a) (v : Byte) (s : State) :
    (hostWriteByte c a v s).mem.read b = s.mem.read b := by
  by_cases ha : a < c.memSize
  · simp [ha, Memory.read_write_other s.mem h]
  · simp [ha]

/-- A load writes no address below the one it starts at (R282). -/
theorem read_hostLoad_below (bytes : List Byte) (h : b < a) (s : State) :
    (hostLoad c a bytes s).mem.read b = s.mem.read b := by
  induction bytes generalizing a s with
  | nil => rfl
  | cons v rest ih =>
    rw [hostLoad, ih (by omega), read_hostWriteByte_other (by omega)]

/-- A loaded byte that has a place in the store is read back there (R282). -/
theorem read_hostLoad {bytes : List Byte} (hk : bytes[k]? = some v) (h : a + k < c.memSize) (s : State) :
    (hostLoad c a bytes s).mem.read (a + k) = v := by
  induction bytes generalizing a k s with
  | nil => simp at hk
  | cons x rest ih =>
    cases k with
    | zero =>
      obtain rfl : x = v := by simpa using hk
      rw [Nat.add_zero] at h ⊢
      rw [hostLoad, read_hostLoad_below rest (by omega), hostWriteByte_below h, setMem_mem, Memory.read_write_same]
    | succ k =>
      rw [hostLoad, show a + (k + 1) = a + 1 + k by omega]
      exact ih (by simpa using hk) (by omega) _

end

/-! ### A table word placed at PC -/

section
variable (s : State) (nbits w : Nat)

/-- Placing a word changes memory and the status only (R283). -/
theorem withFetchWord_frame : { s.withFetchWord nbits w with mem := s.mem, status := s.status } = s := by
  obtain ⟨m, hm, -⟩ := hostLoad_changes_memory_only coreConfig (wordBytes nbits w) s.pc.toNat s
  rw [State.withFetchWord, placeWord, hm]; rfl

theorem withFetchWord_pc : (s.withFetchWord nbits w).pc = s.pc :=
  have h := congrArg State.pc (withFetchWord_frame s nbits w)
  h

theorem withFetchWord_status : (s.withFetchWord nbits w).status = .running := rfl

variable {s nbits w}

/-- The bytes of the word stand where the fetch reads, as far as the store goes (log 16). -/
theorem byteAt_withFetchWord {k : Nat} {v : Byte} (hk : (wordBytes nbits w)[k]? = some v)
    (h : s.pc.toNat + k < 0xFFFF) :
    byteAt (s.withFetchWord nbits w) ((s.withFetchWord nbits w).pc + BitVec.ofNat 16 k) = v := by
  have haddr : (s.pc + BitVec.ofNat 16 k).toNat = s.pc.toNat + k := by
    simp only [BitVec.toNat_add, BitVec.toNat_ofNat]; omega
  rw [withFetchWord_pc, State.withFetchWord, placeWord, byteAt_setStatus, byteAt, haddr]
  exact read_hostLoad hk h s

theorem byteAt_pc_withFetchWord {v : Byte} (hk : (wordBytes nbits w)[0]? = some v) (h : s.pc.toNat < 0xFFFF) :
    byteAt (s.withFetchWord nbits w) (s.withFetchWord nbits w).pc = v := by
  simpa using byteAt_withFetchWord (s := s) hk h

theorem decodeBytes_of_decodeTableWord {i : Instr} (h : decodeTableWord nbits w = some i) :
    ∃ rest, decodeBytes (wordBytes nbits w) = .ok i rest := by
  unfold decodeTableWord at h
  split at h <;> cases h
  exact ⟨_, ‹_›⟩

end

/-- Settles O47: a word decodes by its first byte, or by 0xCB and its second, and below 0xFFFE both are where the fetch
reads. -/
theorem placedWordRunsNext : Obligations.PlacedWordRunsNext := by
  intro s nbits w i hpc hi
  have hst := withFetchWord_status s nbits w
  refine ⟨withFetchWord_frame s nbits w, hst, ?_⟩
  have hpc' := withFetchWord_pc s nbits w
  obtain ⟨rest, hdec⟩ := decodeBytes_of_decodeTableWord hi
  rcases decodeBytes_cases hdec with ⟨b, hw, rfl⟩ | ⟨b, hw, hd⟩
  · have h0 := byteAt_pc_withFetchWord (s := s) (v := 0xCB) (by rw [hw]; rfl) (by omega)
    have h1 : byteAt (s.withFetchWord nbits w) ((s.withFetchWord nbits w).pc + 1) = b :=
      byteAt_withFetchWord (k := 1) (by rw [hw]; rfl) (by omega)
    rw [step_prefixed hst h0 (by bv_omega) (by bv_omega), h1, exec_prefixOp]
  · have h0 := byteAt_pc_withFetchWord (s := s) (v := b) (by rw [hw]; rfl) (by omega)
    exact step_of_byteAt hst (by bv_omega) h0 hd

/-! ### How long a row is -/

section
variable {i : Instr} {v : InstrValue} {k : Cond}

theorem rowKind_of_valueOf (h : valueOf i = some v) : rowKind i = .value v := by
  unfold valueOf at h
  split at h <;> cases h
  assumption

/-- A row with a value takes three bytes if it is a JP or CALL, and otherwise one (R80). -/
theorem lengthOf_cases (h : valueOf i = some v) :
    ((∃ k, v = .jump k ∨ v = .call k) ∧ lengthOf i = 3) ∨ lengthOf i = 1 := by
  rw [lengthOf, rowKind_of_valueOf h]
  cases v with
  | jump k => exact .inl ⟨⟨k, .inl rfl⟩, rfl⟩
  | call k => exact .inl ⟨⟨k, .inr rfl⟩, rfl⟩
  | _ => exact .inr rfl

/-- The rows of a conditional JP or CALL. -/
theorem mem_conditionalRows_of_valueOf (hv : valueOf i = some v) (h : v = .jump k ∨ v = .call k) (hk : k ≠ .always) :
    i ∈ [Instr.jpNZ, .jpZ, .jpNC, .jpC, .callNZ, .callZ, .callNC, .callC] := by
  rcases h with rfl | rfl <;> cases i <;> cases hv <;> revert hk <;> decide

/-! ### How far a value that returns moves PC and SP -/

/-- A value that does not transfer control goes on past its own bytes (R116). -/
theorem Ends.next_of_not_transfersControl {c : Config} {s s1 : State} {w : Word} (h : Ends c s v (.ok w s1))
    (hv : valueOf i = some v) (ht : transfersControl i s = false) : w = s.pc + BitVec.ofNat 16 (lengthOf i) := by
  rw [lengthOf, rowKind_of_valueOf hv]
  cases h with
  | loadReg | loadMem => rw [loadLength_of_wellFormed (wellFormed_of_valueOf hv)]; rfl
  | jump hk | call hk | ret hk => simp [transfersControl, hv, hk] at ht
  | _ => rfl

/-- A value that returns leaves SP or moves it by 2 inside the store, which 0xFFFF is not of (R161). -/
theorem Ends.sp_without_wrap {s s1 : State} {w : Word} (h : Ends coreConfig s v (.ok w s1)) :
    s1.sp = s.sp ∨ s1.sp.toNat + 2 = s.sp.toNat ∨ s1.sp.toNat = s.sp.toNat + 2 := by
  cases h with
  | push hp | call _ hp =>
    have hsp := (pushFits_iff rfl).1 hp
    exact .inr (.inl (by rw [pushed_sp]; bv_omega))
  | pop hp | ret _ hp =>
    obtain ⟨h1, h2⟩ := (popFits_iff rfl).1 hp
    refine .inr (.inr ?_)
    simp only [writePair_sp, setSp_sp]
    bv_omega
  | _ => exact .inl (by simp)

/-- An instruction has been fetched from an address that exists (R50, R111). -/
theorem pc_ne_top_of_fetchInstr_ok {s s1 : State} (h : fetchInstr coreConfig s = .ok i s1) : s.pc ≠ 0xFFFF := by
  intro hpc
  simp [fetchInstr, fetch_at_top hpc] at h

/-- A row that ends past 0xFFFF, untaken, has three bytes, so it is a conditional JP or CALL (R288). -/
theorem conditional_of_wrap {s : State} (hv : valueOf i = some v) (ht : transfersControl i s = false)
    (hpc : s.pc ≠ 0xFFFF) (hwrap : 65536 ≤ s.pc.toNat + lengthOf i) :
    i ∈ [Instr.jpNZ, .jpZ, .jpNC, .jpC, .callNZ, .callZ, .callNC, .callC] ∧ (s.pc = 0xFFFD ∨ s.pc = 0xFFFE) := by
  rcases lengthOf_cases hv with ⟨⟨k, hk⟩, hlen⟩ | hlen
  · have hcond : k ≠ .always := by
      rintro rfl
      rcases hk with rfl | rfl <;> simp [transfersControl, hv, condHolds] at ht
    exact ⟨mem_conditionalRows_of_valueOf hv hk hcond, by bv_omega⟩
  · bv_omega

end

/-- Settles O44: a machine still running has committed a handler that returned, so PC and SP are what that way of ending
gives; nothing is fetched from 0xFFFF, so only a row of three bytes can end past it. -/
theorem wrapShowsOnlyAfterAnUntakenJumpOrCall : Obligations.WrapShowsOnlyAfterAnUntakenJumpOrCall := by
  intro s t i _ hf h ht
  rcases exec_cases h with ⟨v, r, hv, he, hr⟩ | ⟨b, rfl, rfl⟩
  · obtain ⟨w, s1, rfl⟩ := commit_running hr ht
    cases hr
    exact ⟨fun hn => ⟨he.next_of_not_transfersControl hv hn, conditional_of_wrap hv hn (pc_ne_top_of_fetchInstr_ok hf)⟩,
      he.sp_without_wrap⟩
  · cases ht

end Sys2Proof.Machine
